-- ==== Sys2Proof/Word.lean ====
section
/-! DEFINITION. The words of the machine: bytes, and the sent-by role that a command word carries. -/

namespace Sys2Proof

/-- One byte of the datagram buffer (20_memory.md R64). -/
abbrev Byte := BitVec 8

/-- A command word (30_encoding.md R80, format CW). -/
abbrev CommandWord := BitVec 16

/-- The datum of a register-port access (10_state.md R34). -/
abbrev PortWord := BitVec 64

/-- The sent-by role `SB` of a packet: the endpoint that sent, or will send, it (30_encoding.md R81). -/
inductive Role where
  | client
  | server
  deriving DecidableEq, Repr

end Sys2Proof
end

