-- ==== Sys2Proof/Syntax.lean ====
section
/-! DEFINITION. The instructions: one constructor per row of spec/opcode_table.json. -/

namespace Sys2Proof

/-- The instructions of the three formats of 30_encoding.md R80. A command (format CW) carries no operand but `SB`
(R90). A row of format FT or PF is a byte of BUF, with the bits its row leaves open as operands (R84, R87). -/
inductive Instr where
  /-- R120 -/
  | faultAck
  /-- R135 -/
  | pnWidth
  /-- R136 -/
  | pnC2w
  /-- R137 -/
  | pnDec
  /-- R138 -/
  | pnEnc
  /-- R139 -/
  | pnNext
  /-- R140 -/
  | sidWidth
  /-- R141 -/
  | sidC2w
  /-- R142 -/
  | sidDec
  /-- R143 -/
  | sidEnc
  /-- R144 -/
  | sidNext
  /-- R145 -/
  | offWidth
  /-- R146 -/
  | offC2w
  /-- R147 -/
  | offDec
  /-- R148 -/
  | offEnc
  /-- R150 -/
  | uf16Dec
  /-- R151 -/
  | uf16Enc
  /-- R162 -/
  | ftDec
  /-- R163 -/
  | ftEnc
  /-- R172 -/
  | ackValidate
  /-- R174 -/
  | ackAcks
  /-- R177 -/
  | ackDec
  /-- R178 -/
  | ackEnc
  /-- R206 -/
  | pktParse (sb : Role)
  /-- R210 -/
  | pktSerReg (sb : Role)
  /-- R207 -/
  | pktSerRst
  /-- R208 -/
  | pktSerNeg
  /-- R209 -/
  | verChoose
  /-- R161, kind 0 -/
  | ftPadding
  /-- R161, kind 1 -/
  | ftRstStream
  /-- R161, kind 2 -/
  | ftConnectionClose
  /-- R161, kind 3 -/
  | ftGoaway
  /-- R161, kind 4 -/
  | ftWindowUpdate
  /-- R161, kind 5 -/
  | ftBlocked
  /-- R161, kind 6 -/
  | ftStopWaiting
  /-- R161, kind 7 -/
  | ftPing
  /-- R161, kind 8: `x` = bits 4:0, without structure -/
  | ftCongestionFeedback (x : BitVec 5)
  /-- R161, kind 9: `n` = bit 5 has-missing-ranges, `ll` = bits 4:3, `u` = bit 2, `mm` = bits 1:0 -/
  | ftAck (n : Bool) (ll : BitVec 2) (u : Bool) (mm : BitVec 2)
  /-- R161, kind 10: `f` = bit 6 FIN, `d` = bit 5 has-data, `ooo` = bits 4:2, `ss` = bits 1:0 -/
  | ftStream (f d : Bool) (ooo : BitVec 3) (ss : BitVec 2)
  /-- R88, order 1: `v` = bit 0, `n` = bit 2, `pp` = bits 5:4 -/
  | pfReset (v n : Bool) (pp : BitVec 2)
  /-- R88, order 2 (bit 0 is 1): `n` = bit 2, `pp` = bits 5:4 -/
  | pfNegotiation (n : Bool) (pp : BitVec 2)
  /-- R88, order 3: `v` = bit 0, `n` = bit 2, `pp` = bits 5:4 -/
  | pfRegular (v n : Bool) (pp : BitVec 2)
  deriving DecidableEq, Repr

end Sys2Proof
end

