-- ==== Sys2Proof/Decode.lean ====
section
/-! DEFINITION. The decoder of the three formats of 30_encoding.md, total and rejecting by name, and the encoder. -/

namespace Sys2Proof

/-- Why a bit pattern is no instruction (30_encoding.md R83, R86, R89). -/
inductive Illegal where
  /-- R83: `OP` is not in the opcode map -/
  | unassignedOpcode
  /-- R83: bit 8 set with an `OP` that has no role operand -/
  | strayRole
  /-- R83: `w[15:9]` not zero -/
  | reservedBits
  /-- R86: a type byte in 0x08..0x1F -/
  | reservedFrameType
  /-- R89: bit 7 or bit 6 of a flags byte set -/
  | reservedFlagBits
  /-- R89: bit 3 of a flags byte clear -/
  | missingConnectionId
  deriving DecidableEq, Repr

/-- One item of the three formats (R80). A flags byte is read under the sent-by role of the command (R88). -/
inductive Encoding where
  | cw (w : CommandWord)
  | ft (t : Byte)
  | pf (sb : Role) (f : Byte)
  deriving DecidableEq, Repr

/-- A frame type byte by class and fields (R84). -/
inductive FrameByte where
  | padding | rstStream | connectionClose | goaway | windowUpdate | blocked | stopWaiting | ping
  | congestionFeedback (x : BitVec 5)
  | ack (n : Bool) (ll : BitVec 2) (u : Bool) (mm : BitVec 2)
  | stream (f d : Bool) (ooo : BitVec 3) (ss : BitVec 2)
  deriving DecidableEq, Repr

/-- A public flags byte by variant and fields (R87, R88). -/
inductive FlagsByte where
  | reset (v n : Bool) (pp : BitVec 2)
  | negotiation (n : Bool) (pp : BitVec 2)
  | regular (v n : Bool) (pp : BitVec 2)
  deriving DecidableEq, Repr

/-- One row of the opcode map of R82. -/
structure CommandRow where
  pattern : CommandWord
  mask : CommandWord
  build : Role → Instr

/-- `SB` = bit 8 of a command word: 0 client, 1 server (R81). -/
def roleOfWord (w : CommandWord) : Role := if w.getLsbD 8 then .server else .client

/-- The opcode map of R82: unit control and VLI. -/
def commandTableVli : List CommandRow :=
  [ ⟨0x0001, 0xFFFF, fun _ => .faultAck⟩,
    ⟨0x0010, 0xFFFF, fun _ => .pnWidth⟩,
    ⟨0x0011, 0xFFFF, fun _ => .pnC2w⟩,
    ⟨0x0012, 0xFFFF, fun _ => .pnDec⟩,
    ⟨0x0013, 0xFFFF, fun _ => .pnEnc⟩,
    ⟨0x0014, 0xFFFF, fun _ => .pnNext⟩,
    ⟨0x0018, 0xFFFF, fun _ => .sidWidth⟩,
    ⟨0x0019, 0xFFFF, fun _ => .sidC2w⟩,
    ⟨0x001A, 0xFFFF, fun _ => .sidDec⟩,
    ⟨0x001B, 0xFFFF, fun _ => .sidEnc⟩,
    ⟨0x001C, 0xFFFF, fun _ => .sidNext⟩,
    ⟨0x0020, 0xFFFF, fun _ => .offWidth⟩,
    ⟨0x0021, 0xFFFF, fun _ => .offC2w⟩,
    ⟨0x0022, 0xFFFF, fun _ => .offDec⟩,
    ⟨0x0023, 0xFFFF, fun _ => .offEnc⟩ ]

/-- The opcode map of R82: units UF16, FDD, ARC and PHU. -/
def commandTableCodecs : List CommandRow :=
  [ ⟨0x0028, 0xFFFF, fun _ => .uf16Dec⟩,
    ⟨0x0029, 0xFFFF, fun _ => .uf16Enc⟩,
    ⟨0x0030, 0xFFFF, fun _ => .ftDec⟩,
    ⟨0x0031, 0xFFFF, fun _ => .ftEnc⟩,
    ⟨0x0040, 0xFFFF, fun _ => .ackValidate⟩,
    ⟨0x0041, 0xFFFF, fun _ => .ackAcks⟩,
    ⟨0x0042, 0xFFFF, fun _ => .ackDec⟩,
    ⟨0x0043, 0xFFFF, fun _ => .ackEnc⟩,
    ⟨0x0050, 0xFEFF, fun sb => .pktParse sb⟩,
    ⟨0x0051, 0xFEFF, fun sb => .pktSerReg sb⟩,
    ⟨0x0052, 0xFFFF, fun _ => .pktSerRst⟩,
    ⟨0x0053, 0xFFFF, fun _ => .pktSerNeg⟩,
    ⟨0x0054, 0xFFFF, fun _ => .verChoose⟩ ]

/-- The whole opcode map of R82, 28 rows. -/
def commandTable : List CommandRow := commandTableVli ++ commandTableCodecs

/-- Which of the three reasons of R83 makes a word illegal, the reserved bits named first. -/
def illegalReason (w : CommandWord) : Illegal :=
  if w.extractLsb' 9 7 ≠ 0#7 then .reservedBits
  else if commandTable.any (fun r => w.extractLsb' 0 8 == r.pattern.extractLsb' 0 8) then .strayRole
  else .unassignedOpcode

/-- Decode a command word: "the word selects the row when `w AND mask = match`" (R82); otherwise R83. -/
def decodeCommand (w : CommandWord) : Except Illegal Instr :=
  match commandTable.find? (fun r => w &&& r.mask == r.pattern) with
  | some r => .ok (r.build (roleOfWord w))
  | none => .error (illegalReason w)

/-- Decode a frame type byte by the classes of R84 and R85; 0x08..0x1F are reserved (R86). -/
def decodeFrameByte (t : Byte) : Except Illegal FrameByte :=
  if t &&& 0x80#8 = 0x80#8 then
    .ok (.stream (t.getLsbD 6) (t.getLsbD 5) (t.extractLsb' 2 3) (t.extractLsb' 0 2))
  else if t &&& 0xC0#8 = 0x40#8 then
    .ok (.ack (t.getLsbD 5) (t.extractLsb' 3 2) (t.getLsbD 2) (t.extractLsb' 0 2))
  else if t &&& 0xE0#8 = 0x20#8 then .ok (.congestionFeedback (t.extractLsb' 0 5))
  else match t.toNat with
    | 0 => .ok .padding
    | 1 => .ok .rstStream
    | 2 => .ok .connectionClose
    | 3 => .ok .goaway
    | 4 => .ok .windowUpdate
    | 5 => .ok .blocked
    | 6 => .ok .stopWaiting
    | 7 => .ok .ping
    | _ => .error .reservedFrameType

/-- Decode a public flags byte under a role: well-formedness (R89), then the variants in R88's priority order. -/
def decodeFlagsByte (sb : Role) (f : Byte) : Except Illegal FlagsByte :=
  if f.getLsbD 7 || f.getLsbD 6 then .error .reservedFlagBits
  else if !f.getLsbD 3 then .error .missingConnectionId
  else if f.getLsbD 1 then .ok (.reset (f.getLsbD 0) (f.getLsbD 2) (f.extractLsb' 4 2))
  else if f.getLsbD 0 && sb == .server then .ok (.negotiation (f.getLsbD 2) (f.extractLsb' 4 2))
  else .ok (.regular (f.getLsbD 0) (f.getLsbD 2) (f.extractLsb' 4 2))

/-- The instruction a frame type byte stands for. -/
def instrOfFrame : FrameByte → Instr
  | .padding => .ftPadding
  | .rstStream => .ftRstStream
  | .connectionClose => .ftConnectionClose
  | .goaway => .ftGoaway
  | .windowUpdate => .ftWindowUpdate
  | .blocked => .ftBlocked
  | .stopWaiting => .ftStopWaiting
  | .ping => .ftPing
  | .congestionFeedback x => .ftCongestionFeedback x
  | .ack n ll u mm => .ftAck n ll u mm
  | .stream f d ooo ss => .ftStream f d ooo ss

/-- The instruction a public flags byte stands for. -/
def instrOfFlags : FlagsByte → Instr
  | .reset v n pp => .pfReset v n pp
  | .negotiation n pp => .pfNegotiation n pp
  | .regular v n pp => .pfRegular v n pp

/-- The decoder: total on every word and byte of the three formats, and on nothing else refusing but by name. -/
def decode : Encoding → Except Illegal Instr
  | .cw w => decodeCommand w
  | .ft t => (decodeFrameByte t).map instrOfFrame
  | .pf sb f => (decodeFlagsByte sb f).map instrOfFlags

/-- One bit as a bit string. -/
def bit (b : Bool) : BitVec 1 := BitVec.ofBool b

/-- `SB` as bit 8 of a command word (R81). -/
def roleBit : Role → CommandWord
  | .client => 0x0000
  | .server => 0x0100

/-- The flags byte pattern `0 0 P P 1 N R V` (R87). -/
def flagsPattern (pp : BitVec 2) (n r v : Bool) : Byte :=
  0#2 ++ pp ++ 1#1 ++ bit n ++ bit r ++ bit v

/-- The command words of R82 and the byte patterns of R84, R85 and R87. A regular packet without a version tag has
the same byte under both roles; the encoder names the client. -/
def encode : Instr → Encoding
  | .faultAck => .cw 0x0001
  | .pnWidth => .cw 0x0010
  | .pnC2w => .cw 0x0011
  | .pnDec => .cw 0x0012
  | .pnEnc => .cw 0x0013
  | .pnNext => .cw 0x0014
  | .sidWidth => .cw 0x0018
  | .sidC2w => .cw 0x0019
  | .sidDec => .cw 0x001A
  | .sidEnc => .cw 0x001B
  | .sidNext => .cw 0x001C
  | .offWidth => .cw 0x0020
  | .offC2w => .cw 0x0021
  | .offDec => .cw 0x0022
  | .offEnc => .cw 0x0023
  | .uf16Dec => .cw 0x0028
  | .uf16Enc => .cw 0x0029
  | .ftDec => .cw 0x0030
  | .ftEnc => .cw 0x0031
  | .ackValidate => .cw 0x0040
  | .ackAcks => .cw 0x0041
  | .ackDec => .cw 0x0042
  | .ackEnc => .cw 0x0043
  | .pktParse sb => .cw (0x0050 ||| roleBit sb)
  | .pktSerReg sb => .cw (0x0051 ||| roleBit sb)
  | .pktSerRst => .cw 0x0052
  | .pktSerNeg => .cw 0x0053
  | .verChoose => .cw 0x0054
  | .ftPadding => .ft 0x00
  | .ftRstStream => .ft 0x01
  | .ftConnectionClose => .ft 0x02
  | .ftGoaway => .ft 0x03
  | .ftWindowUpdate => .ft 0x04
  | .ftBlocked => .ft 0x05
  | .ftStopWaiting => .ft 0x06
  | .ftPing => .ft 0x07
  | .ftCongestionFeedback x => .ft (0b001#3 ++ x)
  | .ftAck n ll u mm => .ft (0b01#2 ++ bit n ++ ll ++ bit u ++ mm)
  | .ftStream f d ooo ss => .ft (1#1 ++ bit f ++ bit d ++ ooo ++ ss)
  | .pfReset v n pp => .pf .client (flagsPattern pp n true v)
  | .pfNegotiation n pp => .pf .server (flagsPattern pp n false true)
  | .pfRegular v n pp => .pf .client (flagsPattern pp n false v)

/-- The byte of an encoding of format FT or PF, and the low byte of a command word. -/
def encodingByte : Encoding → Byte
  | .cw w => w.setWidth 8
  | .ft t => t
  | .pf _ f => f

/-- The role under which a lone public flags byte is read: PF.NEGOTIATION is "selected only when the command's
SB = 1", so a byte with bit 0 set and bit 1 clear is read as sent by a server, any other as sent by a client.
DESIGN CHOICE, log entry 6. -/
def loneFlagsRole (f : Byte) : Role := if f.getLsbD 0 && !f.getLsbD 1 then .server else .client

/-- How a lone byte of the opcode table is read: as a frame type byte where it is one, else as a public flags byte.
DESIGN CHOICE, log entry 6. -/
def loneByteEncoding (t : Byte) : Encoding :=
  match decodeFrameByte t with
  | .ok _ => .ft t
  | .error _ => .pf (loneFlagsRole t) t

/-- The encoding that `nbits` bits of spec/opcode_table.json hold: 16 bits are a command word, 8 bits a byte of
format FT or PF; the table has no other width. -/
def tableEncoding (nbits w : Nat) : Option Encoding :=
  if nbits = 16 ∧ w < 2 ^ 16 then some (.cw (BitVec.ofNat 16 w))
  else if nbits = 8 ∧ w < 2 ^ 8 then some (loneByteEncoding (BitVec.ofNat 8 w))
  else none

/-- The instruction the decoder reads from `nbits` bits of the opcode table. -/
def decodeTableWord (nbits w : Nat) : Option Instr :=
  match tableEncoding nbits w with
  | none => none
  | some e =>
    match decode e with
    | .ok i => some i
    | .error _ => none

end Sys2Proof
end

