-- ==== Sys2Proof/Config.lean ====
section
/-! DEFINITION. What an implementation fixes (the three open parameters of 00_scope.md R5), the fixed constants of
R6, and the values the spec leaves unspecified, as constants without a body. -/

namespace Sys2Proof.Config

/-- The three open parameters (00_scope.md R5). The spec makes them arguments of the model; State carries them. -/
structure Params where
  /-- `BUF_SIZE`, the size of the datagram buffer in bytes. -/
  bufSize : Nat
  /-- `MAX_RANGES`, the number of entries of the ACK range table. -/
  maxRanges : Nat
  /-- `N_SUPV`, the number of supported-version slots. -/
  nSupv : Nat
  deriving DecidableEq, Repr

/-- The bounds of 00_scope.md R5. -/
abbrev Params.ok (p : Params) : Prop :=
  (128 ≤ p.bufSize ∧ p.bufSize ≤ 65535) ∧ (256 ≤ p.maxRanges ∧ p.maxRanges ≤ 65535) ∧
    (1 ≤ p.nSupv ∧ p.nSupv ≤ 16)

/-- The values the spec's own test vectors use (R5, last column). DESIGN CHOICE, log entry 2: unsafe. -/
def Params.vectors : Params := { bufSize := 2048, maxRanges := 256, nSupv := 4 }

/-- `PN_MAX = 2^48 - 1` (R6). -/
def pnMax : Nat := 0xFFFFFFFFFFFF

/-- `SID_MAX = 2^32 - 1` (R6). -/
def sidMax : Nat := 0xFFFFFFFF

/-- `OFF_MAX = 2^56 - 1` (R6). -/
def offMax : Nat := 0xFFFFFFFFFFFFFF

/-- `UF16_MAX = 4095 * 2^30` (41_vli.md R149). -/
def uf16Max : Nat := 0x3FFC0000000

/-- The byte that reset number `epoch` left at address `a` of BUF: unspecified, any byte, independently per reset
(10_state.md R37). A free value: nothing constrains it (log entry 3). -/
opaque resetByte (epoch a : Nat) : Byte

/-- What reset number `epoch` left in `RANGE[i].first`: unspecified, any 48-bit value (R37). Free value, log entry 4. -/
opaque resetRangeFirst (epoch i : Nat) : BitVec 48

/-- What reset number `epoch` left in `RANGE[i].last`: unspecified, any 48-bit value (R37). Free value, log entry 4. -/
opaque resetRangeLast (epoch i : Nat) : BitVec 48

end Sys2Proof.Config
end

