-- ==== Sys2Proof/Machine/State.lean ====
section
/-! DEFINITION. The state of the block as plain data (10_state.md R20), the host's actions, the fault codes the block
takes, and the machine right after reset (R37). -/

namespace Sys2Proof.Machine

/-- The two modes (60_exceptions.md R241). -/
inductive Mode where
  | ready
  | faulted
  deriving DecidableEq, Repr

/-- The faults a command raises and the block takes (60_exceptions.md R232). They are no stop of the machine: raising
one is a next state (R233). -/
inductive FaultCode where
  /-- E_ILLEGAL_CMD -/
  | illegalCmd
  /-- E_SHORT_BUFFER -/
  | shortBuffer
  /-- E_NO_SPACE -/
  | noSpace
  /-- E_BAD_WIDTH -/
  | badWidth
  /-- E_VALUE_RANGE -/
  | valueRange
  /-- E_BAD_FRAME_TYPE -/
  | badFrameType
  /-- E_BAD_ACK -/
  | badAck
  /-- E_BAD_FLAGS -/
  | badFlags
  /-- E_BAD_VERSION -/
  | badVersion
  /-- E_BAD_RESET -/
  | badReset
  /-- E_BAD_OPERAND -/
  | badOperand
  deriving DecidableEq, Repr

/-- What stops the machine: nothing. Every fault of the spec is taken (R233) and leaves a next state, and port actions
never fault (R230), so this type has no constructor (log entry 10: safe, since no behaviour is cut short). -/
inductive Fault where
  deriving DecidableEq, Repr

/-- Why an instruction is refused. -/
inductive Refusal where
  /-- Raised by an arm of `exec` whose instruction has no meaning yet: none is left. Safe: it stops. -/
  | notModelled (mnemonic : String)
  deriving DecidableEq, Repr

/-- One action of the host (40_common.md R110). `regWrite 0x00 w` issues the command `w`. -/
inductive HostAction where
  | regRead (idx : BitVec 8)
  | regWrite (idx : BitVec 8) (v : PortWord)
  | bufRead (a : BitVec 16)
  | bufWrite (a : BitVec 16) (b : Byte)
  | reset
  deriving DecidableEq, Repr

/-- The value a host action returned (R110). -/
inductive Answer where
  | nothing
  | register (v : PortWord)
  | byte (b : Byte)
  deriving DecidableEq, Repr

/-- The bytes of BUF that have been written since the last reset: addresses strictly rising. An unlisted address holds
no known value; the byte read there is the free value of log entry 3. -/
abbrev Memory := List Host.Cell

/-- One column of the range table: the entries written since the last reset, indices strictly rising (log entry 4). -/
abbrev RangeColumn := List (Nat × BitVec 48)

/-- The whole machine. The spec's own elements are those of R20; the last four are the model's (INVENTORY.md). -/
structure State where
  /-- `MODE` (R20, R241) -/
  mode : Mode
  /-- `ERR` (R26) -/
  err : BitVec 8
  /-- `CMD` (R25) -/
  cmd : BitVec 16
  /-- `BUF` (R24) -/
  buf : Memory
  /-- `CUR` (R22) -/
  cur : BitVec 16
  /-- `LEN` (R23) -/
  len : BitVec 16
  /-- `VAL` (R27) -/
  val : BitVec 64
  /-- `WID` (R27) -/
  wid : BitVec 4
  /-- `CODE` (R27) -/
  code : BitVec 3
  /-- `COND` (R28) -/
  cond : BitVec 1
  /-- `TB` (R29) -/
  tb : BitVec 8
  /-- `FINFO` (R29) -/
  finfo : BitVec 16
  /-- `FWID` (R29) -/
  fwid : BitVec 12
  /-- `LARGEST` (R30) -/
  largest : BitVec 48
  /-- `LOWEST` (R30) -/
  lowest : BitVec 48
  /-- `DELAY` (R30) -/
  delay : BitVec 64
  /-- `NRANGES` (R30) -/
  nranges : BitVec 16
  /-- `RIDX` (R30, R31) -/
  ridx : BitVec 16
  /-- `AEMIT` (R30) -/
  aemit : BitVec 16
  /-- `RANGE[i].first` (R31) -/
  rangeFirst : RangeColumn
  /-- `RANGE[i].last` (R31) -/
  rangeLast : RangeColumn
  /-- `PFLAGS` (R32) -/
  pflags : BitVec 8
  /-- `PKIND` (R32) -/
  pkind : BitVec 2
  /-- `CID` (R32) -/
  cid : BitVec 64
  /-- `PINFO` (R32) -/
  pinfo : BitVec 3
  /-- `VER` (R32) -/
  ver : BitVec 32
  /-- `PNUM` (R32) -/
  pnum : BitVec 48
  /-- `PNLEN` (R32) -/
  pnlen : BitVec 4
  /-- `NONCE[0]` (R32) -/
  nonce0 : BitVec 64
  /-- `NONCE[1]` (R32) -/
  nonce1 : BitVec 64
  /-- `NONCE[2]` (R32) -/
  nonce2 : BitVec 64
  /-- `NONCE[3]` (R32) -/
  nonce3 : BitVec 64
  /-- `AFAM` (R32) -/
  afam : BitVec 16
  /-- `APORT` (R32) -/
  aport : BitVec 16
  /-- `ADDR[0]` (R32) -/
  addr0 : BitVec 64
  /-- `ADDR[1]` (R32) -/
  addr1 : BitVec 64
  /-- `NVER` (R32) -/
  nver : BitVec 16
  /-- `NEGOFF` (R32) -/
  negoff : BitVec 16
  /-- `VERSEL` (R32) -/
  versel : BitVec 32
  /-- `SUPVEN` (R33): bit `j` for slot `j`; bits at and above `N_SUPV` are 0 -/
  supven : BitVec 16
  /-- `SUPV[0 .. N_SUPV-1]` (R33) -/
  supv : List (BitVec 32)
  /-- The parameters (00_scope.md R5, R21); the model's field, log entry 2 -/
  cfg : Config.Params
  /-- How many resets have been performed; the model's field, log entry 3 -/
  epoch : Nat
  /-- What the host does next; the model's field, log entry 1 -/
  pending : List HostAction
  /-- What the last host action returned; the model's field, log entry 9 -/
  answer : Answer
  deriving DecidableEq, Repr

/-- The reset state of R37 for given parameters, after reset number `epoch`, with `pending` still to come. -/
def State.initial (cfg : Config.Params) (epoch : Nat) (pending : List HostAction) : State :=
  { mode := .ready, err := 0, cmd := 0
    buf := [], cur := 0, len := 0
    val := 0, wid := 0, code := 0, cond := 0
    tb := 0, finfo := 0, fwid := 0
    largest := 0, lowest := 0, delay := 0, nranges := 0, ridx := 0, aemit := 0
    rangeFirst := [], rangeLast := []
    pflags := 0, pkind := 0, cid := 0, pinfo := 0, ver := 0, pnum := 0, pnlen := 0
    nonce0 := 0, nonce1 := 0, nonce2 := 0, nonce3 := 0
    afam := 0, aport := 0, addr0 := 0, addr1 := 0
    nver := 0, negoff := 0, versel := 0
    supven := 0, supv := List.replicate cfg.nSupv 0
    cfg := cfg, epoch := epoch, pending := pending, answer := .nothing }

/-- The machine right after reset (R37), with the parameters of log entry 2 and no host action pending. -/
def State.reset : State := State.initial Config.Params.vectors 0 []

end Sys2Proof.Machine
end

