-- ==== Sys2Proof/Machine/Flags.lean ====
section
/-! DEFINITION. The block's only flag, COND (10_state.md R28), and the STATUS word (R26). -/

namespace Sys2Proof.Machine

/-- The value of COND for the answer of a predicate command: 1 for true (R28). -/
def condOf (b : Bool) : BitVec 1 := BitVec.ofBool b

/-- `STATUS.FAULTED` (R26). -/
def faultedBit : Mode → Nat
  | .ready => 0
  | .faulted => 1

/-- `STATUS`: bit 0 FAULTED, bits 7:1 zero, bits 15:8 ERR (R26). -/
def statusWord (mode : Mode) (err : BitVec 8) : BitVec 16 := BitVec.ofNat 16 (err.toNat * 256 + faultedBit mode)

end Sys2Proof.Machine
end

