-- ==== Sys2Proof/Machine/Memory.lean ====
section
/-! DEFINITION. Sparse tables in canonical form, and the bytes of BUF and entries of RANGE held in them. -/

namespace Sys2Proof.Machine

/-- The entry listed at index `a`, if any. -/
def tableGet {α : Type} : List (Nat × α) → Nat → Option α
  | [], _ => none
  | (b, v) :: m, a => if a = b then some v else tableGet m a

/-- The table with `v` at index `a`, kept in rising order. -/
def tableSet {α : Type} : List (Nat × α) → Nat → α → List (Nat × α)
  | [], a, v => [(a, v)]
  | (b, w) :: m, a, v =>
    if a < b then (a, v) :: (b, w) :: m
    else if a = b then (a, v) :: m
    else (b, w) :: tableSet m a v

/-- Indices strictly rising, all at least `low` and below `high`. -/
def tableSorted {α : Type} (high : Nat) : Nat → List (Nat × α) → Bool
  | _, [] => true
  | low, (a, _) :: m => decide (low ≤ a) && decide (a < high) && tableSorted high (a + 1) m

/-- The canonical form of BUF: addresses strictly rising, none at or above `size`. An unlisted address holds no known
value, so no entry can equal what an unlisted address holds. -/
def Memory.wf (size : Nat) (m : Memory) : Bool := tableSorted size 0 m

/-- The canonical form of a column of RANGE. -/
def RangeColumn.wf (size : Nat) (m : RangeColumn) : Bool := tableSorted size 0 m

/-- Store bytes at consecutive addresses (20_memory.md R62, `MemPut`). -/
def memPut : Memory → Nat → List Byte → Memory
  | m, _, [] => m
  | m, a, b :: bs => memPut (tableSet m a b) (a + 1) bs

/-- `BUF[a]`: the byte written there since the last reset, else the unspecified byte that reset left (10_state.md R37). -/
def State.byte (s : State) (a : Nat) : Byte := (tableGet s.buf a).getD (Config.resetByte s.epoch a)

/-- `RANGE[i].first` (10_state.md R31, R37). -/
def State.rangeFirstAt (s : State) (i : Nat) : BitVec 48 :=
  (tableGet s.rangeFirst i).getD (Config.resetRangeFirst s.epoch i)

/-- `RANGE[i].last` (10_state.md R31, R37). -/
def State.rangeLastAt (s : State) (i : Nat) : BitVec 48 :=
  (tableGet s.rangeLast i).getD (Config.resetRangeLast s.epoch i)

/-- `MemRead(a, n)`: the little-endian natural in `n` bytes from `a` (20_memory.md R60, R65). -/
def State.memRead (s : State) : Nat → Nat → Nat
  | _, 0 => 0
  | a, n + 1 => (s.byte a).toNat + 256 * s.memRead (a + 1) n

/-- `MemBytes(a, n)`: the bytes at `a .. a+n-1` in address order (R62). -/
def State.memBytes (s : State) : Nat → Nat → List Byte
  | _, 0 => []
  | a, n + 1 => s.byte a :: s.memBytes (a + 1) n

/-- The bytes that `MemWrite(a, n, v)` stores: `(v div 2^(8*i)) mod 256` for `i` in `0..n-1` (R61). -/
def leBytes : Nat → Nat → List Byte
  | 0, _ => []
  | n + 1, v => BitVec.ofNat 8 v :: leBytes n (v / 256)

end Sys2Proof.Machine
end

