-- ==== Sys2Proof/Machine/Operands.lean ====
section
/-! DEFINITION. Operand forms: bit fields, the width and code functions of the three integer types (41_vli.md R132 to
R134), byte strings in registers (00_scope.md R13), the range list and the supported-version set. -/

namespace Sys2Proof.Machine

/-- `v[hi:lo]` as a natural (00_scope.md R8). -/
def field {w : Nat} (v : BitVec w) (hi lo : Nat) : Nat := v.toNat / 2 ^ lo % 2 ^ (hi - lo + 1)

/-- `bitlen(v)`: the least `n` with `v < 2^n` (00_scope.md R8). -/
def bitlen (v : Nat) : Nat := if v = 0 then 0 else Nat.log2 v + 1

/-- `pn_width` (R132). -/
def pnWidth (v : Nat) : Nat :=
  if v ≤ 0xFF then 1 else if v ≤ 0xFFFF then 2 else if v ≤ 0xFFFFFFFF then 4 else 6

/-- `pn_w`: PacketNumber flag code to width (R132). -/
def pnOfCode : Nat → Nat
  | 0 => 1
  | 1 => 2
  | 2 => 4
  | _ => 6

/-- `pn_code`: PacketNumber width to flag code (R132). -/
def pnCode : Nat → Nat
  | 1 => 0
  | 2 => 1
  | 4 => 2
  | _ => 3

/-- `sid_width` (R133). -/
def sidWidth (v : Nat) : Nat :=
  if v ≤ 0xFF then 1 else if v ≤ 0xFFFF then 2 else if v ≤ 0xFFFFFF then 3 else 4

/-- `sid_w` (R133). -/
def sidOfCode (c : Nat) : Nat := c + 1

/-- `sid_code` (R133). -/
def sidCode (w : Nat) : Nat := w - 1

/-- `off_width` (R134). -/
def offWidth (v : Nat) : Nat :=
  if v = 0 then 0
  else if v ≤ 0xFFFF then 2
  else if v ≤ 0xFFFFFF then 3
  else if v ≤ 0xFFFFFFFF then 4
  else if v ≤ 0xFFFFFFFFFF then 5
  else if v ≤ 0xFFFFFFFFFFFF then 6
  else 7

/-- `off_w` for the codes 0 to 6 (R134); code 7 is rejected before it is asked. -/
def offOfCode : Nat → Nat
  | 0 => 0
  | c => c + 1

/-- `off_code` (R134). -/
def offCode : Nat → Nat
  | 0 => 0
  | w => w - 1

/-- The PacketNumber width set (R130). -/
def pnWidths : List Nat := [1, 2, 4, 6]

/-- The StreamID width set (R130). -/
def sidWidths : List Nat := [1, 2, 3, 4]

/-- The Offset width set (R130). -/
def offWidths : List Nat := [0, 2, 3, 4, 5, 6, 7]

/-- The 32 bytes of NONCE in wire order (44_packet.md R202). -/
def State.nonceBytes (s : State) : List Byte :=
  leBytes 8 s.nonce0.toNat ++ leBytes 8 s.nonce1.toNat ++ leBytes 8 s.nonce2.toNat ++ leBytes 8 s.nonce3.toNat

/-- The first `n` of the 16 bytes of ADDR in wire order (44_packet.md R205). -/
def State.addrBytes (s : State) (n : Nat) : List Byte :=
  (leBytes 8 s.addr0.toNat ++ leBytes 8 s.addr1.toNat).take n

/-- A closed interval of packet numbers (43_ack.md R170). -/
structure AckRange where
  first : Nat
  last : Nat
  deriving DecidableEq, Repr

/-- The range list `rs = RANGE[0 .. NRANGES-1]` (43_ack.md R170). -/
def State.ranges (s : State) : List AckRange :=
  (List.range s.nranges.toNat).map fun i => ⟨(s.rangeFirstAt i).toNat, (s.rangeLastAt i).toNat⟩

/-- Slot `j` is enabled and its tag (10_state.md R33). -/
def State.supvAt (s : State) (j : Nat) : BitVec 32 := s.supv.getD j 0

/-- The tags of the enabled slots in ascending order (44_packet.md R208). -/
def State.supportedTags (s : State) : List Nat :=
  ((List.range s.cfg.nSupv).filter fun j => s.supven.getLsbD j).map fun j => (s.supvAt j).toNat

/-- `supported(t)` (10_state.md R33). -/
def State.supported (s : State) (t : Nat) : Bool :=
  (List.range s.cfg.nSupv).any fun j => s.supven.getLsbD j && (s.supvAt j).toNat == t

end Sys2Proof.Machine
end

