-- ==== Sys2Proof/Machine/Ops.lean ====
section
/-! DEFINITION. The shared operations: taking a fault and returning from it, issuing a command, the two guards, and
moving the cursor. -/

namespace Sys2Proof.Machine

/-- The three outcomes of a step of this machine. -/
abbrev Outcome := Host.Outcome State Fault Refusal

/-- The code of a fault (60_exceptions.md R232). -/
def faultNumber : FaultCode → BitVec 8
  | .illegalCmd => 1
  | .shortBuffer => 2
  | .noSpace => 3
  | .badWidth => 4
  | .valueRange => 5
  | .badFrameType => 6
  | .badAck => 7
  | .badFlags => 8
  | .badVersion => 9
  | .badReset => 10
  | .badOperand => 11

/-- Taking a fault (R233): MODE and ERR are written, CMD already holds the faulting word, nothing else changes. -/
def takeFault (e : FaultCode) (s : State) : State := { s with mode := .faulted, err := faultNumber e }

/-- Returning from a fault (R234, R120). -/
def returnFromFault (s : State) : State := { s with mode := .ready, err := 0 }

/-- `raise E_X` (00_scope.md R11). -/
def raise (e : FaultCode) (s : State) : Outcome := .next (takeFault e s)

/-- End a command's rule: all of its writes together, or the fault procedure (40_common.md R112). -/
def settle (body : State → Except FaultCode State) (s : State) : Outcome :=
  match body s with
  | .ok t => .next t
  | .error e => raise e s

/-- `CMD <- w` (R111). -/
def withCmd (w : CommandWord) (s : State) : State := { s with cmd := w }

/-- Issue the command `w` whose rule is `body` (R111): dropped in FAULTED mode, else CMD is written and the rule runs. -/
def command (w : CommandWord) (body : State → Outcome) (s : State) : Outcome :=
  match s.mode with
  | .faulted => .next s
  | .ready => body (withCmd w s)

/-- Run the rule of a byte of BUF that a command has met. FAULTED mode executes nothing (R235). -/
def wireByte (body : State → Outcome) (s : State) : Outcome :=
  match s.mode with
  | .faulted => .next s
  | .ready => body s

/-- A word that no row of the opcode map matches (R111, 30_encoding.md R83). -/
def illegalCommand (w : CommandWord) (s : State) : Outcome := command w (raise .illegalCmd) s

/-- `need_read(p, n)` fails: `p + n > LEN` (20_memory.md R62). -/
abbrev State.short (s : State) (p n : Nat) : Prop := s.len.toNat < p + n

/-- `need_write(p, n)` fails: `p + n > BUF_SIZE` (R62). -/
abbrev State.noRoom (s : State) (p n : Nat) : Prop := s.cfg.bufSize < p + n

/-- `CUR <- p` (40_common.md R115). -/
def State.moveTo (s : State) (p : Nat) : State := { s with cur := BitVec.ofNat 16 p }

/-- Store `bytes` at CUR, move CUR past them, and raise LEN to it (R115, 10_state.md R22, R23). -/
def State.emitted (s : State) (bytes : List Byte) : State :=
  { s with
    buf := memPut s.buf s.cur.toNat bytes
    cur := BitVec.ofNat 16 (s.cur.toNat + bytes.length)
    len := BitVec.ofNat 16 (max s.len.toNat (s.cur.toNat + bytes.length)) }

/-- The end of every serialize command: the one space check, then the bytes (R62, R236 point 3). -/
def emit (bytes : List Byte) (s : State) : Except FaultCode State :=
  if s.noRoom s.cur.toNat bytes.length then .error .noSpace else .ok (s.emitted bytes)

end Sys2Proof.Machine
end

