-- ==== Sys2Proof/Machine/Uf16.lean ====
section
/-! DEFINITION. The 16-bit unsigned float of the ACK delay (41_vli.md R149 to R151). -/

namespace Sys2Proof.Machine

/-- `uf16_dec(c)` (R149). -/
def uf16Dec (c : Nat) : Nat := if c < 4096 then c else (2048 + c % 2048) * 2 ^ (c / 2048 - 1)

/-- `uf16_enc(v)` (R149): truncation toward zero, saturation at `UF16_MAX`. -/
def uf16Enc (v : Nat) : Nat :=
  if v < 4096 then v
  else if Config.uf16Max ≤ v then 0xFFFF
  else
    let e := bitlen v - 12
    (e + 1) * 2048 + (v / 2 ^ e - 2048)

/-- UF16_DEC (R150): bits 63:16 of VAL are ignored. -/
def execUf16Dec (s : State) : Outcome :=
  command 0x0028 (fun s => .next { s with val := BitVec.ofNat 64 (uf16Dec (field s.val 15 0)) }) s

/-- UF16_ENC (R151): all 64 bits of VAL. -/
def execUf16Enc (s : State) : Outcome :=
  command 0x0029 (fun s => .next { s with val := BitVec.ofNat 64 (uf16Enc s.val.toNat) }) s

end Sys2Proof.Machine
end

