-- ==== Sys2Proof/Machine/Ack.lean ====
section
/-! DEFINITION. The ACK range gap/run compressor (43_ack.md). -/

namespace Sys2Proof.Machine

/-- Consecutive ranges are strictly descending with a boundary gap of at least 2 (R171). -/
def rangesDescend : List AckRange → Bool
  | [] => true
  | [_] => true
  | r :: q :: rs => decide (q.last + 2 ≤ r.first) && rangesDescend (q :: rs)

/-- `ack_valid(L, rs)` (R171). -/
def ackValid (L : Nat) (rs : List AckRange) : Bool :=
  match rs with
  | [] => true
  | [_] => false
  | r :: q :: rest =>
    decide (r.last = L) && (r :: q :: rest).all (fun x => decide (x.first ≤ x.last)) && rangesDescend (r :: q :: rest)

/-- ACK_VALIDATE (R172). -/
def execAckValidate (s : State) : Outcome :=
  command 0x0040 (fun s => .next { s with cond := condOf (ackValid s.largest.toNat s.ranges) }) s

/-- `ack_acks(n)` (R173). -/
def ackAcks (s : State) (n : Nat) : Bool :=
  if n < s.lowest.toNat ∨ s.largest.toNat < n then false
  else if s.nranges = 0 then true
  else s.ranges.any fun r => decide (r.first ≤ n) && decide (n ≤ r.last)

/-- ACK_ACKS (R174). -/
def execAckAcks (s : State) : Outcome :=
  command 0x0041 (fun s => .next { s with cond := condOf (ackAcks s s.val.toNat) }) s

/-- The pairs of an ACK frame (R176): `count` pairs from address `p`, block width `abw`, `acc` the gap accumulated so
far, `pf` the `first` of the last run. Answers the further runs and the address after the pairs. -/
def ackPairs (s : State) (abw : Nat) : (count p acc pf : Nat) → Except FaultCode (List AckRange × Nat)
  | 0, p, _, _ => .ok ([], p)
  | count + 1, p, acc, pf =>
    if s.short p (1 + abw) then .error .shortBuffer
    else
      let gap := acc + (s.byte p).toNat
      let run := s.memRead (p + 1) abw
      if run = 0 then ackPairs s abw count (p + 1 + abw) gap pf
      else if pf ≤ gap + run then .error .badAck
      else
        match ackPairs s abw count (p + 1 + abw) 0 (pf - gap - run) with
        | .error e => .error e
        | .ok (rs, q) => .ok (⟨pf - gap - run, pf - gap - 1⟩ :: rs, q)

/-- What `ack_parse` answers (R176). -/
structure AckFrame where
  largest : Nat
  lowest : Nat
  delay : Nat
  ranges : List AckRange
  next : Nat
  deriving DecidableEq, Repr

/-- The bytes of the timestamp entries (R175, item 8). -/
def timestampBytes (nts : Nat) : Nat := if nts = 0 then 0 else 5 + 3 * (nts - 1)

/-- The timestamp section from address `p` (R175, items 7 and 8; R176): consumed and discarded. -/
def ackTimestamps (s : State) (p : Nat) : Except FaultCode Nat :=
  if s.short p 1 then .error .shortBuffer
  else
    let n := timestampBytes (s.byte p).toNat
    if s.short (p + 1) n then .error .shortBuffer else .ok (p + 1 + n)

/-- `first` of the last range of a list that begins with `r`. -/
def lastFirst : AckRange → List AckRange → Nat
  | r, [] => r.first
  | _, q :: rs => lastFirst q rs

/-- `ack_parse` from the first block length at address `p` (R176): `L` the largest acked, `dc` the delay code, `n` the
has-missing-ranges bit, `abw` the block width, `count` the number of pairs. -/
def ackBlocks (s : State) (L dc : Nat) (n : Bool) (abw count p : Nat) : Except FaultCode AckFrame :=
  if s.short p abw then .error .shortBuffer
  else
    let fb := s.memRead p abw
    if fb = 0 ∨ L < fb then .error .badAck
    else
      let head : AckRange := ⟨L - fb + 1, L⟩
      match ackPairs s abw count (p + abw) 0 head.first with
      | .error e => .error e
      | .ok (rest, p) =>
        match ackTimestamps s p with
        | .error e => .error e
        | .ok next =>
          if n = false then .ok ⟨L, L - fb + 1, uf16Dec dc, [], next⟩
          else if ackValid L (head :: rest) = false then .error .badAck
          else .ok ⟨L, lastFirst head rest, uf16Dec dc, head :: rest, next⟩

/-- `ack_parse(p0)` (R176). -/
def ackParse (s : State) (p0 : Nat) : Except FaultCode AckFrame :=
  if s.short p0 1 then .error .shortBuffer
  else
    let t := s.byte p0
    if field t 7 6 ≠ 1 then .error .badFrameType
    else
      let n := t.getLsbD 5
      let law := pnOfCode (field t 4 3)
      let abw := pnOfCode (field t 1 0)
      let p := p0 + 1
      if s.short p law then .error .shortBuffer
      else
        let L := s.memRead p law
        if L = 0 then .error .valueRange
        else
          let p := p + law
          if s.short p 2 then .error .shortBuffer
          else
            let dc := s.memRead p 2
            let p := p + 2
            if n = false then ackBlocks s L dc n abw 0 p
            else if s.short p 1 then .error .shortBuffer
            else ackBlocks s L dc n abw (s.byte p).toNat (p + 1)

/-- Write ranges into the table from index `i` on. -/
def storeRanges (s : State) : Nat → List AckRange → State
  | _, [] => s
  | i, r :: rs =>
    storeRanges
      { s with
        rangeFirst := tableSet s.rangeFirst i (BitVec.ofNat 48 r.first)
        rangeLast := tableSet s.rangeLast i (BitVec.ofNat 48 r.last) } (i + 1) rs

/-- ACK_DEC's rule (R177). -/
def ackDecode (s : State) : Except FaultCode State :=
  match ackParse s s.cur.toNat with
  | .error e => .error e
  | .ok a =>
    .ok
      { (storeRanges s 0 a.ranges).moveTo a.next with
        largest := BitVec.ofNat 48 a.largest
        lowest := BitVec.ofNat 48 a.lowest
        delay := BitVec.ofNat 64 a.delay
        nranges := BitVec.ofNat 16 a.ranges.length }

/-- ACK_DEC (R177). -/
def execAckDec (s : State) : Outcome := command 0x0042 (settle ackDecode) s

/-- The number of wire entries that a gap needs, `ceil(gap / 255)` (R179). -/
def gapCount (gap : Nat) : Nat := (gap + 254) / 255

/-- The wire pairs of one gap and run (R179): the gap in pieces of 255, the run whole in the last entry. -/
def gapEntries (gap run : Nat) : List (Nat × Nat) :=
  let q := gapCount gap
  List.replicate (q - 1) (255, 0) ++ [(gap - 255 * (q - 1), run)]

/-- `ack_entries` after the first range (R179): `above` is the `first` of the range before, `used` the wire pairs so
far. Answers how many ranges are emitted and their pairs; a range is dropped with all lower ones when its entries do
not fit in 255. -/
def ackEntries : (above used : Nat) → List AckRange → Nat × List (Nat × Nat)
  | _, _, [] => (0, [])
  | above, used, r :: rs =>
    let gap := above - r.last - 1
    if 255 < used + gapCount gap then (0, [])
    else
      let below := ackEntries r.first (used + gapCount gap) rs
      (below.1 + 1, gapEntries gap (r.last - r.first + 1) ++ below.2)

/-- What `ACK_ENC` puts into a frame: the first block, the number of ranges emitted, the pairs (R178). -/
structure AckPlan where
  firstBlock : Nat
  emitted : Nat
  pairs : List (Nat × Nat)
  deriving DecidableEq, Repr

/-- The operand checks of `ACK_ENC` and what it will emit (R178). -/
def ackPlan (s : State) : Except FaultCode AckPlan :=
  let L := s.largest.toNat
  if L < 1 then .error .valueRange
  else
    match s.ranges with
    | [] =>
      if s.lowest.toNat < 1 ∨ L < s.lowest.toNat then .error .badAck
      else .ok ⟨L - s.lowest.toNat + 1, 0, []⟩
    | r :: rs =>
      if ackValid L (r :: rs) = false then .error .badAck
      else if lastFirst r rs < 1 then .error .badAck
      else .ok ⟨L - r.first + 1, (ackEntries r.first 0 rs).1 + 1, (ackEntries r.first 0 rs).2⟩

/-- The bytes of the pairs (R175, item 6). -/
def pairBytes (abw : Nat) : List (Nat × Nat) → List Byte
  | [] => []
  | (g, run) :: ps => BitVec.ofNat 8 g :: (leBytes abw run ++ pairBytes abw ps)

/-- The bytes of an ACK frame with an empty timestamp section (R175, R178). -/
def ackFrameBytes (L delay : Nat) (a : AckPlan) : List Byte :=
  let law := pnWidth L
  let abw := pnWidth ((a.pairs.map Prod.snd).foldl max a.firstBlock)
  let n := if 2 ≤ a.emitted then 1 else 0
  [BitVec.ofNat 8 (0x40 + n * 32 + pnCode law * 8 + pnCode abw)]
    ++ leBytes law L
    ++ leBytes 2 (uf16Enc delay)
    ++ (if 2 ≤ a.emitted then [BitVec.ofNat 8 a.pairs.length] else [])
    ++ leBytes abw a.firstBlock
    ++ pairBytes abw a.pairs
    ++ [0x00]

/-- ACK_ENC's rule (R178). -/
def ackEncode (s : State) : Except FaultCode State :=
  match ackPlan s with
  | .error e => .error e
  | .ok a => emit (ackFrameBytes s.largest.toNat s.delay.toNat a) { s with aemit := BitVec.ofNat 16 a.emitted }

/-- ACK_ENC (R178). -/
def execAckEnc (s : State) : Outcome := command 0x0043 (settle ackEncode) s

end Sys2Proof.Machine
end

