-- ==== Sys2Proof/Machine/Control.lean ====
section
/-! DEFINITION. The control command FAULT_ACK (40_common.md R120). -/

namespace Sys2Proof.Machine

/-- FAULT_ACK (R120, R234): in FAULTED mode the return from the fault, CMD keeping the faulting word; in READY mode
only CMD is written. -/
def execFaultAck (s : State) : Outcome :=
  match s.mode with
  | .faulted => .next (returnFromFault s)
  | .ready => .next (withCmd 0x0001 s)

end Sys2Proof.Machine
end

