-- ==== Sys2Proof/Machine/FrameType.lean ====
section
/-! DEFINITION. The frame discriminant decoder (42_frame_type.md): the meanings of the eleven type-byte rows, FT_DEC
which meets such a byte at the cursor, and FT_ENC which composes one. -/

namespace Sys2Proof.Machine

/-- The record of fields that R161 returns; "every field not named in the returned record is 0". -/
structure FrameFields where
  kind : BitVec 4
  fin : BitVec 1 := 0
  hasData : BitVec 1 := 0
  offCode : BitVec 3 := 0
  sidCode : BitVec 2 := 0
  hasMiss : BitVec 1 := 0
  laCode : BitVec 2 := 0
  abCode : BitVec 2 := 0
  offW : BitVec 3 := 0
  sidW : BitVec 3 := 0
  laW : BitVec 3 := 0
  abW : BitVec 3 := 0
  deriving DecidableEq, Repr

/-- FINFO (10_state.md R29): bits 15:14, 13:12, 11, 10:9, 8:6, 5, 4, 3:0. -/
def finfoOf (r : FrameFields) : BitVec 16 :=
  r.abCode ++ r.laCode ++ r.hasMiss ++ r.sidCode ++ r.offCode ++ r.hasData ++ r.fin ++ r.kind

/-- FWID (R29): bits 11:9, 8:6, 5:3, 2:0. -/
def fwidOf (r : FrameFields) : BitVec 12 := r.abW ++ r.laW ++ r.sidW ++ r.offW

/-- The writes of FT_DEC for a type byte and its fields (R162); CUR is not advanced. -/
def classified (t : Byte) (r : FrameFields) (s : State) : State :=
  { s with tb := t, finfo := finfoOf r, fwid := fwidOf r }

/-- A type byte whose class has no fields but its kind number (R160, R161). -/
def plainFrame (t : Byte) (kind : BitVec 4) (s : State) : Outcome := .next (classified t { kind := kind } s)

/-- The byte of a type-byte row (30_encoding.md R84, R85). -/
def frameTypeByte (b : FrameByte) : Byte := encodingByte (encode (instrOfFrame b))

/-- The fields of an ACK type byte (R161); bit 2 is ignored. -/
def ackFields (n : Bool) (ll mm : BitVec 2) : FrameFields :=
  { kind := 9, hasMiss := bit n, laCode := ll, abCode := mm
    laW := BitVec.ofNat 3 (pnOfCode ll.toNat), abW := BitVec.ofNat 3 (pnOfCode mm.toNat) }

/-- The fields of a STREAM type byte with an assigned offset code (R161). -/
def streamFields (f d : Bool) (ooo : BitVec 3) (ss : BitVec 2) : FrameFields :=
  { kind := 10, fin := bit f, hasData := bit d, offCode := ooo, sidCode := ss
    offW := BitVec.ofNat 3 (offOfCode ooo.toNat), sidW := BitVec.ofNat 3 (sidOfCode ss.toNat) }

/-- PADDING (R161). -/
def execFtPadding (s : State) : Outcome := wireByte (plainFrame (frameTypeByte .padding) 0) s

/-- RST_STREAM (R161). -/
def execFtRstStream (s : State) : Outcome := wireByte (plainFrame (frameTypeByte .rstStream) 1) s

/-- CONNECTION_CLOSE (R161). -/
def execFtConnectionClose (s : State) : Outcome := wireByte (plainFrame (frameTypeByte .connectionClose) 2) s

/-- GOAWAY (R161). -/
def execFtGoaway (s : State) : Outcome := wireByte (plainFrame (frameTypeByte .goaway) 3) s

/-- WINDOW_UPDATE (R161). -/
def execFtWindowUpdate (s : State) : Outcome := wireByte (plainFrame (frameTypeByte .windowUpdate) 4) s

/-- BLOCKED (R161). -/
def execFtBlocked (s : State) : Outcome := wireByte (plainFrame (frameTypeByte .blocked) 5) s

/-- STOP_WAITING (R161). -/
def execFtStopWaiting (s : State) : Outcome := wireByte (plainFrame (frameTypeByte .stopWaiting) 6) s

/-- PING (R161). -/
def execFtPing (s : State) : Outcome := wireByte (plainFrame (frameTypeByte .ping) 7) s

/-- CONGESTION_FEEDBACK (R161): bits 4..0 are ignored but in TB. -/
def execFtCongestionFeedback (x : BitVec 5) (s : State) : Outcome :=
  wireByte (plainFrame (frameTypeByte (.congestionFeedback x)) 8) s

/-- ACK (R161). -/
def execFtAck (n : Bool) (ll : BitVec 2) (u : Bool) (mm : BitVec 2) (s : State) : Outcome :=
  wireByte (fun s => .next (classified (frameTypeByte (.ack n ll u mm)) (ackFields n ll mm) s)) s

/-- STREAM (R161): offset code 7 is E_BAD_WIDTH. -/
def execFtStream (f d : Bool) (ooo : BitVec 3) (ss : BitVec 2) (s : State) : Outcome :=
  wireByte (fun s =>
    if ooo = 7#3 then raise .badWidth s
    else .next (classified (frameTypeByte (.stream f d ooo ss)) (streamFields f d ooo ss) s)) s

/-- Run the type byte that FT_DEC has met. -/
def runFrameByte (b : FrameByte) (s : State) : Outcome :=
  match b with
  | .padding => execFtPadding s
  | .rstStream => execFtRstStream s
  | .connectionClose => execFtConnectionClose s
  | .goaway => execFtGoaway s
  | .windowUpdate => execFtWindowUpdate s
  | .blocked => execFtBlocked s
  | .stopWaiting => execFtStopWaiting s
  | .ping => execFtPing s
  | .congestionFeedback x => execFtCongestionFeedback x s
  | .ack n ll u mm => execFtAck n ll u mm s
  | .stream f d ooo ss => execFtStream f d ooo ss s

/-- FT_DEC's rule (R162): presence of the byte, then its class. -/
def frameDecode (s : State) : Outcome :=
  if s.short s.cur.toNat 1 then raise .shortBuffer s
  else
    match decodeFrameByte (s.byte s.cur.toNat) with
    | .error _ => raise .badFrameType s
    | .ok b => runFrameByte b s

/-- FT_DEC (R162). -/
def execFtDec (s : State) : Outcome := command 0x0030 frameDecode s

/-- `ft_compose(fi)` (R164). -/
def ftCompose (fi : BitVec 16) : Except FaultCode Byte :=
  let k := field fi 3 0
  if k ≤ 7 then .ok (BitVec.ofNat 8 k)
  else if k = 8 then .ok 0x20
  else if k = 9 then
    .ok (BitVec.ofNat 8 (0x40 + field fi 11 11 * 32 + field fi 13 12 * 8 + field fi 15 14))
  else if k = 10 then
    if field fi 8 6 = 7 then .error .badWidth
    else .ok (BitVec.ofNat 8 (0x80 + field fi 4 4 * 64 + field fi 5 5 * 32 + field fi 8 6 * 4 + field fi 10 9))
  else .error .badOperand

/-- FT_ENC's rule (R163). -/
def frameEncode (s : State) : Except FaultCode State :=
  match ftCompose s.finfo with
  | .error e => .error e
  | .ok t => emit [t] { s with tb := t }

/-- FT_ENC (R163). -/
def execFtEnc (s : State) : Outcome := command 0x0031 (settle frameEncode) s

end Sys2Proof.Machine
end

