-- ==== Sys2Proof/Machine/Packet.lean ====
section
/-! DEFINITION. The packet header unit (44_packet.md): the meanings of the three public-flags rows, PKT_PARSE which
meets such a byte at the cursor, the three serializers, and VER_CHOOSE. -/

namespace Sys2Proof.Machine

/-- What a parse assigns besides PFLAGS and CID; "every result not assigned in the chosen branch is 0" (R206). -/
structure Parsed where
  pkind : Nat
  pinfo : Nat := 0
  ver : Nat := 0
  pnum : Nat := 0
  pnlen : Nat := 0
  nonce0 : Nat := 0
  nonce1 : Nat := 0
  nonce2 : Nat := 0
  nonce3 : Nat := 0
  afam : Nat := 0
  aport : Nat := 0
  addr0 : Nat := 0
  addr1 : Nat := 0
  nver : Nat := 0
  negoff : Nat := 0
  next : Nat
  deriving DecidableEq, Repr

/-- The writes of PKT_PARSE: all packet registers but VERSEL, and CUR (R206). -/
def loadPacket (f : Byte) (cid : Nat) (p : Parsed) (s : State) : State :=
  { s with
    pflags := f
    cid := BitVec.ofNat 64 cid
    pkind := BitVec.ofNat 2 p.pkind
    pinfo := BitVec.ofNat 3 p.pinfo
    ver := BitVec.ofNat 32 p.ver
    pnum := BitVec.ofNat 48 p.pnum
    pnlen := BitVec.ofNat 4 p.pnlen
    nonce0 := BitVec.ofNat 64 p.nonce0
    nonce1 := BitVec.ofNat 64 p.nonce1
    nonce2 := BitVec.ofNat 64 p.nonce2
    nonce3 := BitVec.ofNat 64 p.nonce3
    afam := BitVec.ofNat 16 p.afam
    aport := BitVec.ofNat 16 p.aport
    addr0 := BitVec.ofNat 64 p.addr0
    addr1 := BitVec.ofNat 64 p.addr1
    nver := BitVec.ofNat 16 p.nver
    negoff := BitVec.ofNat 16 p.negoff
    cur := BitVec.ofNat 16 p.next }

/-- The 4-byte tags of the Reset map (R204). -/
def tagPRST : List Byte := [0x50, 0x52, 0x53, 0x54]
def tagRNON : List Byte := [0x52, 0x4E, 0x4F, 0x4E]
def tagRSEQ : List Byte := [0x52, 0x53, 0x45, 0x51]
def tagCADR : List Byte := [0x43, 0x41, 0x44, 0x52]

/-- The values of a Reset packet (R204, R206): `v` the address of the first value, `e` the last end offset, `hasAddr`
whether there is a CADR entry. -/
def parseResetValues (s : State) (v e : Nat) (hasAddr : Bool) : Except FaultCode Parsed :=
  if s.short v e then .error .shortBuffer
  else
    let seq := s.memRead (v + 32) 8
    if seq < 1 ∨ Config.pnMax < seq then .error .valueRange
    else
      let packet : Parsed :=
        { pkind := 1, pnum := seq, pnlen := 8, next := v + e
          nonce0 := s.memRead v 8, nonce1 := s.memRead (v + 8) 8
          nonce2 := s.memRead (v + 16) 8, nonce3 := s.memRead (v + 24) 8 }
      if hasAddr = false then .ok packet
      else
        let fam := s.memRead (v + 40) 2
        if (e = 48 ∧ fam ≠ 0x0002) ∨ (e = 60 ∧ fam ≠ 0x000A) then .error .badReset
        else
          let alen := e - 44
          .ok
            { packet with
              pinfo := 4, afam := fam, aport := s.memRead (v + 42 + alen) 2
              addr0 := s.memRead (v + 42) (min alen 8), addr1 := s.memRead (v + 50) (alen - 8) }

/-- The map of a Reset packet from address `q` (R204, R206). -/
def parseReset (s : State) (q : Nat) : Except FaultCode Parsed :=
  if s.short q 8 then .error .shortBuffer
  else if s.memBytes q 4 ≠ tagPRST then .error .badReset
  else
    let num := s.memRead (q + 4) 2
    if num ≠ 2 ∧ num ≠ 3 then .error .badReset
    else if s.short (q + 8) (8 * num) then .error .shortBuffer
    else if s.memBytes (q + 8) 4 ≠ tagRNON ∨ s.memRead (q + 12) 4 ≠ 32 then .error .badReset
    else if s.memBytes (q + 16) 4 ≠ tagRSEQ ∨ s.memRead (q + 20) 4 ≠ 40 then .error .badReset
    else if num = 2 then parseResetValues s (q + 8 + 8 * num) 40 false
    else
      let e := s.memRead (q + 28) 4
      if s.memBytes (q + 24) 4 ≠ tagCADR ∨ (e ≠ 48 ∧ e ≠ 60) then .error .badReset
      else parseResetValues s (q + 8 + 8 * num) e true

/-- The tags of a Negotiation packet from address `q` (R203, R206): counted, not copied. -/
def parseNegotiation (s : State) (q : Nat) : Except FaultCode Parsed :=
  let rem := s.len.toNat - q
  if rem % 4 ≠ 0 then .error .shortBuffer
  else .ok { pkind := 2, nver := rem / 4, negoff := q, next := s.len.toNat }

/-- The packet number of a Regular packet at address `p`, of `w` bytes (R202, R206), after the fields in `packet`. -/
def parseNumber (s : State) (w p : Nat) (packet : Parsed) : Except FaultCode Parsed :=
  if s.short p w then .error .shortBuffer
  else
    let pn := s.memRead p w
    if pn = 0 then .error .valueRange
    else .ok { packet with pnum := pn, pnlen := w, next := p + w }

/-- The optional nonce of a Regular packet at address `p`, then the packet number (R202, R206). -/
def parseNonce (s : State) (n : Bool) (w p : Nat) (packet : Parsed) : Except FaultCode Parsed :=
  if n = false then parseNumber s w p packet
  else if s.short p 32 then .error .shortBuffer
  else
    parseNumber s w (p + 32)
      { packet with
        pinfo := packet.pinfo + 2
        nonce0 := s.memRead p 8, nonce1 := s.memRead (p + 8) 8
        nonce2 := s.memRead (p + 16) 8, nonce3 := s.memRead (p + 24) 8 }

/-- A Regular header from address `q` (R202, R206): optional version tag, optional nonce, packet number. -/
def parseRegular (v n : Bool) (pp : BitVec 2) (s : State) (q : Nat) : Except FaultCode Parsed :=
  let w := pnOfCode pp.toNat
  if v = false then parseNonce s n w q { pkind := 0, next := q }
  else if s.short q 4 then .error .shortBuffer
  else
    let ver := s.memRead q 4
    if s.supported ver = false then .error .badVersion
    else parseNonce s n w (q + 4) { pkind := 0, pinfo := 1, ver := ver, next := q }

/-- The common part of the three variants (R201, R206): the connection id, then the variant from `CUR + 9`. -/
def parseVariant (f : Byte) (variant : State → Nat → Except FaultCode Parsed) (s : State) : Except FaultCode State :=
  let h := s.cur.toNat
  if s.short (h + 1) 8 then .error .shortBuffer
  else
    match variant s (h + 9) with
    | .error e => .error e
    | .ok p => .ok (loadPacket f (s.memRead (h + 1) 8) p s)

/-- The byte of a flags row (30_encoding.md R87). -/
def publicFlagsByte (b : FlagsByte) : Byte := encodingByte (encode (instrOfFlags b))

/-- A Reset packet's flags byte at the cursor (R206, R204); bits 0, 2, 4, 5 are ignored but in PFLAGS. -/
def execPfReset (v n : Bool) (pp : BitVec 2) (s : State) : Outcome :=
  wireByte (settle (parseVariant (publicFlagsByte (.reset v n pp)) parseReset)) s

/-- A Negotiation packet's flags byte at the cursor (R206, R203); bits 2, 4, 5 are ignored but in PFLAGS. -/
def execPfNegotiation (n : Bool) (pp : BitVec 2) (s : State) : Outcome :=
  wireByte (settle (parseVariant (publicFlagsByte (.negotiation n pp)) parseNegotiation)) s

/-- A Regular packet's flags byte at the cursor (R206, R202). -/
def execPfRegular (v n : Bool) (pp : BitVec 2) (s : State) : Outcome :=
  wireByte (settle (parseVariant (publicFlagsByte (.regular v n pp)) (parseRegular v n pp))) s

/-- Run the flags byte that PKT_PARSE has met. -/
def runFlagsByte (b : FlagsByte) (s : State) : Outcome :=
  match b with
  | .reset v n pp => execPfReset v n pp s
  | .negotiation n pp => execPfNegotiation n pp s
  | .regular v n pp => execPfRegular v n pp s

/-- PKT_PARSE's rule (R206): presence of the flags byte, its well-formedness (30_encoding.md R89), then the variant. -/
def packetParse (sb : Role) (s : State) : Outcome :=
  if s.short s.cur.toNat 1 then raise .shortBuffer s
  else
    match decodeFlagsByte sb (s.byte s.cur.toNat) with
    | .error _ => raise .badFlags s
    | .ok b => runFlagsByte b s

/-- PKT_PARSE (R206). -/
def execPktParse (sb : Role) (s : State) : Outcome := command (0x0050 ||| roleBit sb) (packetParse sb) s

/-- The registers that every serializer writes besides those of `emit`. -/
def State.built (s : State) (f : Byte) (kind width : Nat) : State :=
  { s with pflags := f, pkind := BitVec.ofNat 2 kind, pnlen := BitVec.ofNat 4 width }

/-- PKT_SER_REG's rule (R210). -/
def serializeRegular (sb : Role) (s : State) : Except FaultCode State :=
  let hv := field s.pinfo 0 0
  let hn := field s.pinfo 1 1
  let pn := s.pnum.toNat
  if hv = 1 ∧ sb = .server then .error .badOperand
  else if pn < 1 then .error .valueRange
  else
    let w := pnWidth pn
    let f := BitVec.ofNat 8 (pnCode w * 16 + 8 + hn * 4 + hv)
    emit
      ([f] ++ leBytes 8 s.cid.toNat ++ (if hv = 1 then leBytes 4 s.ver.toNat else [])
        ++ (if hn = 1 then s.nonceBytes else []) ++ leBytes w pn)
      (s.built f 0 w)

/-- PKT_SER_REG (R210). -/
def execPktSerReg (sb : Role) (s : State) : Outcome :=
  command (0x0051 ||| roleBit sb) (settle (serializeRegular sb)) s

/-- The number of address bytes of a family (44_packet.md R205, R207). -/
def addressLength (fam : BitVec 16) : Nat := if fam = 0x0002 then 4 else 16

/-- The bytes of a Reset packet (R204, R205, R207): `ha` whether it carries a socket address. -/
def resetPacketBytes (s : State) (ha : Bool) : List Byte :=
  let alen := addressLength s.afam
  let e := if ha then 44 + alen else 40
  [0x0A] ++ leBytes 8 s.cid.toNat
    ++ tagPRST ++ leBytes 2 (if ha then 3 else 2) ++ leBytes 2 0
    ++ tagRNON ++ leBytes 4 32
    ++ tagRSEQ ++ leBytes 4 40
    ++ (if ha then tagCADR ++ leBytes 4 e else [])
    ++ s.nonceBytes ++ leBytes 8 s.pnum.toNat
    ++ (if ha then leBytes 2 s.afam.toNat ++ s.addrBytes alen ++ leBytes 2 s.aport.toNat else [])

/-- PKT_SER_RST's rule (R207). -/
def serializeReset (s : State) : Except FaultCode State :=
  let ha := s.pinfo.getLsbD 2
  if s.pnum.toNat < 1 then .error .valueRange
  else if ha = true ∧ s.afam ≠ 0x0002 ∧ s.afam ≠ 0x000A then .error .badOperand
  else emit (resetPacketBytes s ha) (s.built 0x0A 1 8)

/-- PKT_SER_RST (R207). -/
def execPktSerRst (s : State) : Outcome := command 0x0052 (settle serializeReset) s

/-- The bytes of a Negotiation packet (R203, R208). -/
def negotiationBytes (s : State) : List Byte :=
  [0x09] ++ leBytes 8 s.cid.toNat ++ s.supportedTags.flatMap (leBytes 4)

/-- PKT_SER_NEG's rule (R208). -/
def serializeNegotiation (s : State) : Except FaultCode State :=
  emit (negotiationBytes s)
    { s.built 0x09 2 0 with
      nver := BitVec.ofNat 16 s.supportedTags.length
      negoff := BitVec.ofNat 16 (s.cur.toNat + 9) }

/-- PKT_SER_NEG (R208). -/
def execPktSerNeg (s : State) : Outcome := command 0x0053 (settle serializeNegotiation) s

/-- `choose(offered)` (R211): the first offered tag in the set; `(false, 0)` when there is none. -/
def choose (s : State) : List Nat → Bool × Nat
  | [] => (false, 0)
  | t :: ts => if s.supported t then (true, t) else choose s ts

/-- The offered tags: `NVER` tags of 4 bytes at `NEGOFF` (R209). -/
def State.offered (s : State) : List Nat :=
  (List.range s.nver.toNat).map fun i => s.memRead (s.negoff.toNat + 4 * i) 4

/-- VER_CHOOSE's rule (R209). -/
def chooseVersion (s : State) : Except FaultCode State :=
  if s.short s.negoff.toNat (4 * s.nver.toNat) then .error .shortBuffer
  else
    let r := choose s s.offered
    .ok { s with versel := BitVec.ofNat 32 r.2, cond := condOf r.1 }

/-- VER_CHOOSE (R209). -/
def execVerChoose (s : State) : Outcome := command 0x0054 (settle chooseVersion) s

end Sys2Proof.Machine
end

