-- ==== Sys2Proof/Machine/Vli.lean ====
section
/-! DEFINITION. The variable-length integer unit (41_vli.md): width, code-to-width, decode, encode and successor of
PacketNumber, StreamID and Offset. -/

namespace Sys2Proof.Machine

/-- `WID <- w; CODE <- c`. -/
def State.setWidth (s : State) (w c : Nat) : State := { s with wid := BitVec.ofNat 4 w, code := BitVec.ofNat 3 c }

/-- The `*_WIDTH` commands (R135, R140, R145): VAL outside `lo .. hi` is E_VALUE_RANGE. -/
def intWidth (lo hi : Nat) (width code : Nat → Nat) (s : State) : Except FaultCode State :=
  let v := s.val.toNat
  if v < lo ∨ hi < v then .error .valueRange
  else .ok (s.setWidth (width v) (code (width v)))

/-- The `*_C2W` commands (R136, R141, R146): CODE above the largest assigned code is E_BAD_WIDTH. -/
def codeToWidth (top : Nat) (width : Nat → Nat) (s : State) : Except FaultCode State :=
  let c := s.code.toNat
  if top < c then .error .badWidth
  else .ok { s with wid := BitVec.ofNat 4 (width c) }

/-- The `*_DEC` commands (R137, R142, R147): the declared width, the presence of the bytes, then the value, which is
refused below `lo`. -/
def intDecode (widths : List Nat) (lo : Nat) (s : State) : Except FaultCode State :=
  let n := s.wid.toNat
  if n ∉ widths then .error .badWidth
  else if s.short s.cur.toNat n then .error .shortBuffer
  else
    let v := s.memRead s.cur.toNat n
    if v < lo then .error .valueRange
    else .ok { s.moveTo (s.cur.toNat + n) with val := BitVec.ofNat 64 v }

/-- The `*_ENC` commands (R138, R143, R148): the value in its canonical width, written at the cursor. -/
def intEncode (lo hi : Nat) (width code : Nat → Nat) (s : State) : Except FaultCode State :=
  let v := s.val.toNat
  if v < lo ∨ hi < v then .error .valueRange
  else emit (leBytes (width v) v) (s.setWidth (width v) (code (width v)))

/-- PN_NEXT's rule (R139): the successor wraps from `2^48 - 1` to 1. -/
def pnSuccessor (s : State) : Except FaultCode State :=
  let v := s.val.toNat
  if v < 1 ∨ Config.pnMax < v then .error .valueRange
  else if v = Config.pnMax then .ok { s with val := 1 }
  else .ok { s with val := BitVec.ofNat 64 (v + 1) }

/-- SID_NEXT's rule (R144): the next stream id of the same parity, refused where it would leave the range. -/
def sidSuccessor (s : State) : Except FaultCode State :=
  let v := s.val.toNat
  if Config.sidMax < v then .error .valueRange
  else if Config.sidMax < v + 2 then .error .valueRange
  else .ok { s with val := BitVec.ofNat 64 (v + 2) }

/-- PN_WIDTH (R135). -/
def execPnWidth (s : State) : Outcome := command 0x0010 (settle (intWidth 1 Config.pnMax pnWidth pnCode)) s

/-- PN_C2W (R136). -/
def execPnC2w (s : State) : Outcome := command 0x0011 (settle (codeToWidth 3 pnOfCode)) s

/-- PN_DEC (R137): a decoded 0 is E_VALUE_RANGE. -/
def execPnDec (s : State) : Outcome := command 0x0012 (settle (intDecode pnWidths 1)) s

/-- PN_ENC (R138). -/
def execPnEnc (s : State) : Outcome := command 0x0013 (settle (intEncode 1 Config.pnMax pnWidth pnCode)) s

/-- PN_NEXT (R139). -/
def execPnNext (s : State) : Outcome := command 0x0014 (settle pnSuccessor) s

/-- SID_WIDTH (R140). -/
def execSidWidth (s : State) : Outcome := command 0x0018 (settle (intWidth 0 Config.sidMax sidWidth sidCode)) s

/-- SID_C2W (R141). -/
def execSidC2w (s : State) : Outcome := command 0x0019 (settle (codeToWidth 3 sidOfCode)) s

/-- SID_DEC (R142). -/
def execSidDec (s : State) : Outcome := command 0x001A (settle (intDecode sidWidths 0)) s

/-- SID_ENC (R143). -/
def execSidEnc (s : State) : Outcome := command 0x001B (settle (intEncode 0 Config.sidMax sidWidth sidCode)) s

/-- SID_NEXT (R144). -/
def execSidNext (s : State) : Outcome := command 0x001C (settle sidSuccessor) s

/-- OFF_WIDTH (R145). -/
def execOffWidth (s : State) : Outcome := command 0x0020 (settle (intWidth 0 Config.offMax offWidth offCode)) s

/-- OFF_C2W (R146): the reserved code 7 is E_BAD_WIDTH. -/
def execOffC2w (s : State) : Outcome := command 0x0021 (settle (codeToWidth 6 offOfCode)) s

/-- OFF_DEC (R147). -/
def execOffDec (s : State) : Outcome := command 0x0022 (settle (intDecode offWidths 0)) s

/-- OFF_ENC (R148). -/
def execOffEnc (s : State) : Outcome := command 0x0023 (settle (intEncode 0 Config.offMax offWidth offCode)) s

end Sys2Proof.Machine
end

