-- ==== Sys2Proof/Machine/Dispatch.lean ====
section
/-! DEFINITION. One arm per constructor of Instr, each a direct call of the instruction's meaning. -/

namespace Sys2Proof.Machine

/-- What an instruction does (40_common.md R111, R112). -/
def exec (i : Instr) (s : State) : Host.Outcome State Fault Refusal :=
  match i with
  | .faultAck => Sys2Proof.Machine.execFaultAck s
  | .pnWidth => Sys2Proof.Machine.execPnWidth s
  | .pnC2w => Sys2Proof.Machine.execPnC2w s
  | .pnDec => Sys2Proof.Machine.execPnDec s
  | .pnEnc => Sys2Proof.Machine.execPnEnc s
  | .pnNext => Sys2Proof.Machine.execPnNext s
  | .sidWidth => Sys2Proof.Machine.execSidWidth s
  | .sidC2w => Sys2Proof.Machine.execSidC2w s
  | .sidDec => Sys2Proof.Machine.execSidDec s
  | .sidEnc => Sys2Proof.Machine.execSidEnc s
  | .sidNext => Sys2Proof.Machine.execSidNext s
  | .offWidth => Sys2Proof.Machine.execOffWidth s
  | .offC2w => Sys2Proof.Machine.execOffC2w s
  | .offDec => Sys2Proof.Machine.execOffDec s
  | .offEnc => Sys2Proof.Machine.execOffEnc s
  | .uf16Dec => Sys2Proof.Machine.execUf16Dec s
  | .uf16Enc => Sys2Proof.Machine.execUf16Enc s
  | .ftDec => Sys2Proof.Machine.execFtDec s
  | .ftEnc => Sys2Proof.Machine.execFtEnc s
  | .ackValidate => Sys2Proof.Machine.execAckValidate s
  | .ackAcks => Sys2Proof.Machine.execAckAcks s
  | .ackDec => Sys2Proof.Machine.execAckDec s
  | .ackEnc => Sys2Proof.Machine.execAckEnc s
  | .pktParse sb => Sys2Proof.Machine.execPktParse sb s
  | .pktSerReg sb => Sys2Proof.Machine.execPktSerReg sb s
  | .pktSerRst => Sys2Proof.Machine.execPktSerRst s
  | .pktSerNeg => Sys2Proof.Machine.execPktSerNeg s
  | .verChoose => Sys2Proof.Machine.execVerChoose s
  | .ftPadding => Sys2Proof.Machine.execFtPadding s
  | .ftRstStream => Sys2Proof.Machine.execFtRstStream s
  | .ftConnectionClose => Sys2Proof.Machine.execFtConnectionClose s
  | .ftGoaway => Sys2Proof.Machine.execFtGoaway s
  | .ftWindowUpdate => Sys2Proof.Machine.execFtWindowUpdate s
  | .ftBlocked => Sys2Proof.Machine.execFtBlocked s
  | .ftStopWaiting => Sys2Proof.Machine.execFtStopWaiting s
  | .ftPing => Sys2Proof.Machine.execFtPing s
  | .ftCongestionFeedback x => Sys2Proof.Machine.execFtCongestionFeedback x s
  | .ftAck n ll u mm => Sys2Proof.Machine.execFtAck n ll u mm s
  | .ftStream f d ooo ss => Sys2Proof.Machine.execFtStream f d ooo ss s
  | .pfReset v n pp => Sys2Proof.Machine.execPfReset v n pp s
  | .pfNegotiation n pp => Sys2Proof.Machine.execPfNegotiation n pp s
  | .pfRegular v n pp => Sys2Proof.Machine.execPfRegular v n pp s

end Sys2Proof.Machine
end

