-- ==== Sys2Proof/Machine/Ports.lean ====
section
/-! DEFINITION. The host's side of the block: the register port (10_state.md R34), the buffer port (20_memory.md R63)
and the reset input (70_reset_and_hazards.md R260). -/

namespace Sys2Proof.Machine

/-- A register of the map of R34. -/
inductive Reg where
  | cmd | status | cur | len | val | wid | code | cond | tb | finfo | fwid
  | largest | lowest | delay | nranges | ridx | rfirst | rlast | aemit
  | pflags | pkind | cid | pinfo | ver | pnum | pnlen | nonce0 | nonce1 | nonce2 | nonce3
  | afam | aport | addr0 | addr1 | nver | negoff | versel | supven
  | supv (j : Nat)
  deriving DecidableEq, Repr

/-- The register at an index, if any; `0x40 + j` exists for `j < N_SUPV` (R34). -/
def regAt (nSupv : Nat) (idx : BitVec 8) : Option Reg :=
  match idx.toNat with
  | 0x00 => some .cmd
  | 0x01 => some .status
  | 0x02 => some .cur
  | 0x03 => some .len
  | 0x08 => some .val
  | 0x09 => some .wid
  | 0x0A => some .code
  | 0x0B => some .cond
  | 0x10 => some .tb
  | 0x11 => some .finfo
  | 0x12 => some .fwid
  | 0x18 => some .largest
  | 0x19 => some .lowest
  | 0x1A => some .delay
  | 0x1B => some .nranges
  | 0x1C => some .ridx
  | 0x1D => some .rfirst
  | 0x1E => some .rlast
  | 0x1F => some .aemit
  | 0x20 => some .pflags
  | 0x21 => some .pkind
  | 0x22 => some .cid
  | 0x23 => some .pinfo
  | 0x24 => some .ver
  | 0x25 => some .pnum
  | 0x26 => some .pnlen
  | 0x28 => some .nonce0
  | 0x29 => some .nonce1
  | 0x2A => some .nonce2
  | 0x2B => some .nonce3
  | 0x2C => some .afam
  | 0x2D => some .aport
  | 0x2E => some .addr0
  | 0x2F => some .addr1
  | 0x30 => some .nver
  | 0x31 => some .negoff
  | 0x32 => some .versel
  | 0x33 => some .supven
  | n => if 0x40 ≤ n ∧ n < 0x40 + nSupv then some (.supv (n - 0x40)) else none

/-- The value of a register zero-extended to 64 bits (R34). The window reads 0 when `RIDX >= MAX_RANGES` (R31). -/
def regValue (s : State) : Reg → PortWord
  | .cmd => s.cmd.setWidth 64
  | .status => (statusWord s.mode s.err).setWidth 64
  | .cur => s.cur.setWidth 64
  | .len => s.len.setWidth 64
  | .val => s.val
  | .wid => s.wid.setWidth 64
  | .code => s.code.setWidth 64
  | .cond => s.cond.setWidth 64
  | .tb => s.tb.setWidth 64
  | .finfo => s.finfo.setWidth 64
  | .fwid => s.fwid.setWidth 64
  | .largest => s.largest.setWidth 64
  | .lowest => s.lowest.setWidth 64
  | .delay => s.delay
  | .nranges => s.nranges.setWidth 64
  | .ridx => s.ridx.setWidth 64
  | .rfirst => if s.ridx.toNat < s.cfg.maxRanges then (s.rangeFirstAt s.ridx.toNat).setWidth 64 else 0
  | .rlast => if s.ridx.toNat < s.cfg.maxRanges then (s.rangeLastAt s.ridx.toNat).setWidth 64 else 0
  | .aemit => s.aemit.setWidth 64
  | .pflags => s.pflags.setWidth 64
  | .pkind => s.pkind.setWidth 64
  | .cid => s.cid
  | .pinfo => s.pinfo.setWidth 64
  | .ver => s.ver.setWidth 64
  | .pnum => s.pnum.setWidth 64
  | .pnlen => s.pnlen.setWidth 64
  | .nonce0 => s.nonce0
  | .nonce1 => s.nonce1
  | .nonce2 => s.nonce2
  | .nonce3 => s.nonce3
  | .afam => s.afam.setWidth 64
  | .aport => s.aport.setWidth 64
  | .addr0 => s.addr0
  | .addr1 => s.addr1
  | .nver => s.nver.setWidth 64
  | .negoff => s.negoff.setWidth 64
  | .versel => s.versel.setWidth 64
  | .supven => s.supven.setWidth 64
  | .supv j => (s.supvAt j).setWidth 64

/-- A host write of a register other than CMD: the value truncated to its width, with the own rules of STATUS (R26),
LEN (R23), NRANGES (R30), the window (R31) and SUPVEN (R33). A write of CMD is a command and does not come here. -/
def regStore (s : State) (v : PortWord) : Reg → State
  | .cmd => s
  | .status => s
  | .cur => { s with cur := v.setWidth 16 }
  | .len => { s with len := BitVec.ofNat 16 (min (v.setWidth 16).toNat s.cfg.bufSize) }
  | .val => { s with val := v }
  | .wid => { s with wid := v.setWidth 4 }
  | .code => { s with code := v.setWidth 3 }
  | .cond => { s with cond := v.setWidth 1 }
  | .tb => { s with tb := v.setWidth 8 }
  | .finfo => { s with finfo := v.setWidth 16 }
  | .fwid => { s with fwid := v.setWidth 12 }
  | .largest => { s with largest := v.setWidth 48 }
  | .lowest => { s with lowest := v.setWidth 48 }
  | .delay => { s with delay := v }
  | .nranges => { s with nranges := BitVec.ofNat 16 (min (v.setWidth 16).toNat s.cfg.maxRanges) }
  | .ridx => { s with ridx := v.setWidth 16 }
  | .rfirst =>
    if s.ridx.toNat < s.cfg.maxRanges then
      { s with rangeFirst := tableSet s.rangeFirst s.ridx.toNat (v.setWidth 48) }
    else s
  | .rlast =>
    if s.ridx.toNat < s.cfg.maxRanges then
      { s with rangeLast := tableSet s.rangeLast s.ridx.toNat (v.setWidth 48) }
    else s
  | .aemit => { s with aemit := v.setWidth 16 }
  | .pflags => { s with pflags := v.setWidth 8 }
  | .pkind => { s with pkind := v.setWidth 2 }
  | .cid => { s with cid := v }
  | .pinfo => { s with pinfo := v.setWidth 3 }
  | .ver => { s with ver := v.setWidth 32 }
  | .pnum => { s with pnum := v.setWidth 48 }
  | .pnlen => { s with pnlen := v.setWidth 4 }
  | .nonce0 => { s with nonce0 := v }
  | .nonce1 => { s with nonce1 := v }
  | .nonce2 => { s with nonce2 := v }
  | .nonce3 => { s with nonce3 := v }
  | .afam => { s with afam := v.setWidth 16 }
  | .aport => { s with aport := v.setWidth 16 }
  | .addr0 => { s with addr0 := v }
  | .addr1 => { s with addr1 := v }
  | .nver => { s with nver := v.setWidth 16 }
  | .negoff => { s with negoff := v.setWidth 16 }
  | .versel => { s with versel := v.setWidth 32 }
  | .supven => { s with supven := BitVec.ofNat 16 (v.toNat % 2 ^ s.cfg.nSupv) }
  | .supv j => { s with supv := s.supv.set j (v.setWidth 32) }

/-- The value a host action returned (40_common.md R110; log entry 9). -/
def withAnswer (a : Answer) (s : State) : State := { s with answer := a }

/-- `RegRead(idx)`: an index that names no register reads 0 (R34). -/
def hostRegRead (idx : BitVec 8) (s : State) : State :=
  withAnswer (.register (match regAt s.cfg.nSupv idx with | some r => regValue s r | none => 0)) s

/-- `RegWrite(idx, v)` for an index other than CMD's: an index that names no register ignores the write (R34). -/
def hostRegWrite (idx : BitVec 8) (v : PortWord) (s : State) : State :=
  withAnswer .nothing (match regAt s.cfg.nSupv idx with | some r => regStore s v r | none => s)

/-- `BufRead(a)`: 0 at or above BUF_SIZE (20_memory.md R63). -/
def hostBufRead (a : BitVec 16) (s : State) : State :=
  withAnswer (.byte (if a.toNat < s.cfg.bufSize then s.byte a.toNat else 0)) s

/-- `BufWrite(a, b)`: nothing at or above BUF_SIZE (R63). -/
def hostBufWrite (a : BitVec 16) (b : Byte) (s : State) : State :=
  withAnswer .nothing (if a.toNat < s.cfg.bufSize then { s with buf := tableSet s.buf a.toNat b } else s)

/-- Reset: the reset state of 10_state.md R37 with the same parameters; what it leaves in BUF and RANGE is new and
unspecified (R260, log entry 3). What the host does next is no state of the block and is kept. -/
def hostReset (s : State) : State := State.initial s.cfg (s.epoch + 1) s.pending

/-- The index of CMD (10_state.md R25). -/
def cmdIndex : BitVec 8 := 0x00

/-- The host action that issues a command word (R110). -/
def issueAction (w : CommandWord) : HostAction := .regWrite cmdIndex (w.setWidth 64)

/-- The command that executes an encoding: a command word itself; FT_DEC a frame type byte; PKT_PARSE, with the role
under which it is read, a public flags byte (30_encoding.md R84, R87; 42_frame_type.md R162; 44_packet.md R206). -/
def commandFor : Encoding → CommandWord
  | .cw w => w
  | .ft _ => 0x0030
  | .pf .client _ => 0x0050
  | .pf .server _ => 0x0150

/-- Put a byte where the next FT_DEC or PKT_PARSE reads it: at CUR, below LEN (log entry 7). CUR moves to 0 only where
it points outside BUF. -/
def placeAtCursor (b : Byte) (s : State) : State :=
  let c := if s.cur.toNat < s.cfg.bufSize then s.cur.toNat else 0
  { s with
    buf := tableSet s.buf c b
    cur := BitVec.ofNat 16 c
    len := BitVec.ofNat 16 (max s.len.toNat (c + 1)) }

/-- Everything that the next step needs to execute an encoding (log entry 7): the byte of an FT or PF row in BUF, and
the command that executes it as the host's next action. -/
def placeEncoding (e : Encoding) (s : State) : State :=
  match e with
  | .cw w => { s with pending := issueAction w :: s.pending }
  | .ft t => { placeAtCursor t s with pending := issueAction (commandFor e) :: s.pending }
  | .pf _ f => { placeAtCursor f s with pending := issueAction (commandFor e) :: s.pending }

end Sys2Proof.Machine
end

