-- ==== Sys2Proof/Machine/Step.lean ====
section
/-! DEFINITION. One step: one host action (40_common.md R110, R111). -/

namespace Sys2Proof.Machine

/-- `RegWrite(0x00, v)`: issue the command word `trunc_16(v)` (R111). -/
def issue (v : PortWord) (s : State) : Host.Outcome State Fault Refusal :=
  match decodeCommand (v.setWidth 16) with
  | .ok i => exec i s
  | .error _ => illegalCommand (v.setWidth 16) s

/-- One host action (R110). -/
def act (a : HostAction) (s : State) : Host.Outcome State Fault Refusal :=
  match a with
  | .regRead idx => .next (hostRegRead idx s)
  | .regWrite idx v => if idx = cmdIndex then issue v (withAnswer .nothing s) else .next (hostRegWrite idx v s)
  | .bufRead a => .next (hostBufRead a s)
  | .bufWrite a b => .next (hostBufWrite a b s)
  | .reset => .next (hostReset s)

/-- One step: the host's next action; with none pending the block is idle and holds its state (60_exceptions.md R246). -/
def step (s : State) : Host.Outcome State Fault Refusal :=
  match s.pending with
  | [] => .next s
  | a :: rest => act a { s with pending := rest }

/-- The state in which the very next step executes the given bits of spec/opcode_table.json (log entries 6 and 7). -/
def State.withFetchWord (s : State) (nbits w : Nat) : State :=
  match tableEncoding nbits w with
  | some e => placeEncoding e s
  | none => s

end Sys2Proof.Machine
end

