-- ==== Sys2Proof/WellFormed.lean ====
section
/-! DEFINITION. The checks an instruction must pass beyond the types of its fields. -/

namespace Sys2Proof

/-- A STREAM type byte's offset code has one of the seven widths of 41_vli.md R134: code 7 is reserved
(30_encoding.md R86). No other row of the opcode table has a reserved operand value. -/
def offsetCodeAssigned (ooo : BitVec 3) : Bool := ooo != 7#3

/-- The instruction uses no reserved operand value. -/
def Instr.wellFormed : Instr → Bool
  | .ftStream _ _ ooo _ => offsetCodeAssigned ooo
  | .faultAck | .pnWidth | .pnC2w | .pnDec | .pnEnc | .pnNext | .sidWidth | .sidC2w | .sidDec | .sidEnc | .sidNext
  | .offWidth | .offC2w | .offDec | .offEnc | .uf16Dec | .uf16Enc | .ftDec | .ftEnc | .ackValidate | .ackAcks | .ackDec
  | .ackEnc | .pktParse _ | .pktSerReg _ | .pktSerRst | .pktSerNeg | .verChoose | .ftPadding | .ftRstStream
  | .ftConnectionClose | .ftGoaway | .ftWindowUpdate | .ftBlocked | .ftStopWaiting | .ftPing | .ftCongestionFeedback _
  | .ftAck _ _ _ _ | .pfReset _ _ _ | .pfNegotiation _ _ | .pfRegular _ _ _ => true

end Sys2Proof
end

