-- ==== Sys2Proof/Safety.lean ====
section
/-! DEFINITION. What counts as a legal state, in the terms the claims use. -/

namespace Sys2Proof.Machine

/-- The invariants the spec states of every reachable state: the parameter bounds (00_scope.md R5), `LEN <= BUF_SIZE`
(10_state.md R23), `NRANGES <= MAX_RANGES` (R30), `ERR` nonzero exactly in FAULTED mode (R26), the `N_SUPV` slots and
enable bits (R33), and the canonical form of the stored tables. -/
structure State.Legal (s : State) : Prop where
  params : s.cfg.ok
  length : s.len.toNat ≤ s.cfg.bufSize
  ranges : s.nranges.toNat ≤ s.cfg.maxRanges
  status : s.err ≠ 0 ↔ s.mode = .faulted
  slots : s.supv.length = s.cfg.nSupv
  enables : s.supven.toNat < 2 ^ s.cfg.nSupv
  buffer : Memory.wf s.cfg.bufSize s.buf = true
  firsts : RangeColumn.wf s.cfg.maxRanges s.rangeFirst = true
  lasts : RangeColumn.wf s.cfg.maxRanges s.rangeLast = true

/-- A step neither faults nor refuses: the block never stops (60_exceptions.md R230, R261). -/
def Completes (o : Host.Outcome State Fault Refusal) : Prop := ∃ t, o = .next t

end Sys2Proof.Machine
end

