-- ==== Sys2Proof/Certificates/Slice0/Obligations.lean ====
section
/-! DEFINITION. The statements for the provers, and the few words they are written in. -/

open Sys2Proof Sys2Proof.Machine

namespace Sys2Proof.Machine

/-- The state after the fault procedure of 60_exceptions.md R233 for the command word `w` and the fault code `code`. -/
def afterFault (w : CommandWord) (code : Nat) (s : State) : State :=
  { s with mode := .faulted, err := BitVec.ofNat 8 code, cmd := w }

/-- The state in which `rest` is still to come and nothing has been answered: what a write to the register port leaves
of the model's own fields. -/
def acted (rest : List HostAction) (s : State) : State := { s with pending := rest, answer := .nothing }

/-- The bytes `bs` stand in BUF from address `a` on. -/
def BytesAt (s : State) (a : Nat) (bs : List Byte) : Prop := ∀ k, k < bs.length → some (s.byte (a + k)) = bs[k]?

/-- Issued as the word `w` in `s`, the instruction `i` completes: it stores exactly `bytes` at CUR, moves CUR past them,
raises LEN to the new CUR, and leaves everything else as in `u` (10_state.md R22, R23; 40_common.md R115). -/
def StoresAtCursor (i : Instr) (w : CommandWord) (s u : State) (bytes : List Byte) : Prop :=
  ∃ t, exec i s = .next t ∧ BytesAt t s.cur.toNat bytes ∧
    (∀ a, a < s.cur.toNat ∨ s.cur.toNat + bytes.length ≤ a → t.byte a = s.byte a) ∧
    t = { u with
          cmd := w
          buf := t.buf
          cur := BitVec.ofNat 16 (s.cur.toNat + bytes.length)
          len := BitVec.ofNat 16 (max s.len.toNat (s.cur.toNat + bytes.length)) }

/-- The instructions that store to BUF (20_memory.md R64). -/
def serializers : List Instr :=
  [.pnEnc, .sidEnc, .offEnc, .ftEnc, .ackEnc, .pktSerReg .client, .pktSerReg .server, .pktSerRst, .pktSerNeg]

/-- The predicate commands (10_state.md R28). -/
def predicates : List Instr := [.ackValidate, .ackAcks, .verChoose]

/-- The 30 legal command words of 30_encoding.md R82 and R83. -/
def legalWords : List CommandWord :=
  [0x0001, 0x0010, 0x0011, 0x0012, 0x0013, 0x0014, 0x0018, 0x0019, 0x001A, 0x001B, 0x001C, 0x0020, 0x0021, 0x0022,
   0x0023, 0x0028, 0x0029, 0x0030, 0x0031, 0x0040, 0x0041, 0x0042, 0x0043, 0x0050, 0x0150, 0x0051, 0x0151, 0x0052,
   0x0053, 0x0054]

/-- Index and width of every register that is plain storage: a host write stores the value truncated to the width
(10_state.md R34). -/
def plainRegisters : List (Nat × Nat) :=
  [(0x02, 16), (0x08, 64), (0x09, 4), (0x0A, 3), (0x0B, 1), (0x10, 8), (0x11, 16), (0x12, 12), (0x18, 48), (0x19, 48),
   (0x1A, 64), (0x1C, 16), (0x1F, 16), (0x20, 8), (0x21, 2), (0x22, 64), (0x23, 3), (0x24, 32), (0x25, 48), (0x26, 4),
   (0x28, 64), (0x29, 64), (0x2A, 64), (0x2B, 64), (0x2C, 16), (0x2D, 16), (0x2E, 64), (0x2F, 64), (0x30, 16),
   (0x31, 16), (0x32, 32)]

/-- The register map of 10_state.md R34: each index and the value of the register there. STATUS shows MODE and ERR (R26);
RFIRST and RLAST show `RANGE[RIDX]`, or 0 where RIDX is at or above MAX_RANGES (R31). -/
def registerMap (s : State) : List (Nat × Nat) :=
  [(0x00, s.cmd.toNat), (0x01, 256 * s.err.toNat + if s.mode = .faulted then 1 else 0), (0x02, s.cur.toNat),
   (0x03, s.len.toNat), (0x08, s.val.toNat), (0x09, s.wid.toNat), (0x0A, s.code.toNat), (0x0B, s.cond.toNat),
   (0x10, s.tb.toNat), (0x11, s.finfo.toNat), (0x12, s.fwid.toNat), (0x18, s.largest.toNat), (0x19, s.lowest.toNat),
   (0x1A, s.delay.toNat), (0x1B, s.nranges.toNat), (0x1C, s.ridx.toNat),
   (0x1D, if s.ridx.toNat < s.cfg.maxRanges then (s.rangeFirstAt s.ridx.toNat).toNat else 0),
   (0x1E, if s.ridx.toNat < s.cfg.maxRanges then (s.rangeLastAt s.ridx.toNat).toNat else 0), (0x1F, s.aemit.toNat),
   (0x20, s.pflags.toNat), (0x21, s.pkind.toNat), (0x22, s.cid.toNat), (0x23, s.pinfo.toNat), (0x24, s.ver.toNat),
   (0x25, s.pnum.toNat), (0x26, s.pnlen.toNat), (0x28, s.nonce0.toNat), (0x29, s.nonce1.toNat), (0x2A, s.nonce2.toNat),
   (0x2B, s.nonce3.toNat), (0x2C, s.afam.toNat), (0x2D, s.aport.toNat), (0x2E, s.addr0.toNat), (0x2F, s.addr1.toNat),
   (0x30, s.nver.toNat), (0x31, s.negoff.toNat), (0x32, s.versel.toNat), (0x33, s.supven.toNat)] ++
  (List.range s.cfg.nSupv).map fun j => (0x40 + j, (s.supv.getD j 0).toNat)

/-- The value of the register at index `idx`, zero-extended; 0 where the map names no register (10_state.md R34). -/
def portValue (idx : BitVec 8) (s : State) : PortWord :=
  match (registerMap s).find? (fun e => e.1 == idx.toNat) with
  | some e => BitVec.ofNat 64 e.2
  | none => 0

/-- Nothing differs but the two columns of RANGE, the actions still to come and the answer. -/
def sameButRange (s t : State) : Prop :=
  t = { s with rangeFirst := t.rangeFirst, rangeLast := t.rangeLast, pending := t.pending, answer := t.answer }

/-- `pn_w` applied to the length code `v[hi:lo]` of a byte (41_vli.md R132). -/
def codedWidth (t : Byte) (hi lo : Nat) : Nat := pnOfCode (field t hi lo)

/-- Run by itself the row `i` faults with `code`, and so does PKT_PARSE under each role for which the flags byte `f` at
the cursor is that row. That the row runs by itself is the model's reading, log entry 5. -/
def ParseFaults (s : State) (i : Instr) (f : Byte) (code : Nat) : Prop :=
  exec i s = .next (afterFault s.cmd code s) ∧
  ∀ (sb : Role) (w : CommandWord), sb = .client ∧ w = 0x0050 ∨ sb = .server ∧ w = 0x0150 →
    s.byte s.cur.toNat = f → decode (.pf sb f) = .ok i → exec (.pktParse sb) s = .next (afterFault w code s)

/-- The fields of an ACK frame on the wire and the addresses of its parts, in the order of 43_ack.md R175, wherever LEN
is: `missing` is N, `width` ABW, `count` the number of pairs, `pairs`, `stamps` and `next` the addresses of the pairs, of
the timestamp section and of the first byte after the frame. -/
structure AckWire where
  missing : Bool
  width : Nat
  largest : Nat
  delayCode : Nat
  firstBlock : Nat
  count : Nat
  pairs : Nat
  stamps : Nat
  next : Nat

/-- The bytes of a timestamp section after its count byte: 5 for the first entry, 3 for each later one (R175, item 8). -/
def stampBytes (nts : Nat) : Nat := if nts = 0 then 0 else 5 + 3 * (nts - 1)

/-- The ACK frame whose type byte stands at `h`, read field by field (R175). -/
def ackWireAt (s : State) (h : Nat) : AckWire :=
  let n := (s.byte h).getLsbD 5
  let law := codedWidth (s.byte h) 4 3
  let abw := codedWidth (s.byte h) 1 0
  let first := h + 3 + law + (if n then 1 else 0)
  let count := if n then (s.byte (h + 3 + law)).toNat else 0
  let stamps := first + abw + count * (1 + abw)
  { missing := n, width := abw, largest := s.memRead (h + 1) law, delayCode := s.memRead (h + 1 + law) 2
    firstBlock := s.memRead first abw, count := count, pairs := first + abw, stamps := stamps
    next := stamps + 1 + stampBytes (s.byte stamps).toNat }

/-- The gap byte of pair `k` (R175, item 6). -/
def AckWire.gap (x : AckWire) (s : State) (k : Nat) : Nat := (s.byte (x.pairs + k * (1 + x.width))).toNat

/-- The block length of pair `k`; 0 makes it a continuation pair (R175, item 6; R176). -/
def AckWire.run (x : AckWire) (s : State) (k : Nat) : Nat := s.memRead (x.pairs + k * (1 + x.width) + 1) x.width

/-- The packet numbers that the first `k` pairs cover, missing ones and runs together. -/
def AckWire.span (x : AckWire) (s : State) (k : Nat) : Nat := ((List.range k).map fun i => x.gap s i + x.run s i).sum

/-- The gap in front of pair `k`: its own and those of the continuation pairs directly before it (R176). -/
def AckWire.gapUpTo (x : AckWire) (s : State) : Nat → Nat
  | 0 => x.gap s 0
  | k + 1 => x.gap s (k + 1) + if x.run s k = 0 then x.gapUpTo s k else 0

/-- `first` of the run that ends at the largest acknowledged packet number (R176). -/
def AckWire.first (x : AckWire) : Nat := x.largest - x.firstBlock + 1

/-- Pair `k` lies below LEN and names a run that reaches packet number 0 or below (R176). -/
def AckWire.overruns (x : AckWire) (s : State) (k : Nat) : Prop :=
  k < x.count ∧ x.pairs + (k + 1) * (1 + x.width) ≤ s.len.toNat ∧ x.run s k ≠ 0 ∧ x.first ≤ x.span s (k + 1)

/-- The pairs name no run, or two runs without a gap between them: the list fails `ack_valid` (R171, R176). -/
def AckWire.invalid (x : AckWire) (s : State) : Prop :=
  (∀ k, k < x.count → x.run s k = 0) ∨ ∃ k, k < x.count ∧ x.run s k ≠ 0 ∧ x.gapUpTo s k = 0

/-- How many of the first `k` pairs name a run. -/
def AckWire.runs (x : AckWire) (s : State) (k : Nat) : Nat := (List.range k).countP fun i => x.run s i ≠ 0

end Sys2Proof.Machine

/-! ## Encoding -/

/-- 30_encoding.md R82, R84, R85, R87, R88: decoding the encoding of any instruction gives it back, with every operand
at every value; the two variants whose byte is read alike under both roles are, under both. -/
def Obligations.DecodeOfEncodeIsTheInstruction : Prop :=
  (∀ i : Instr, decode (encode i) = .ok i) ∧
  (∀ (sb : Role) (v n : Bool) (pp : BitVec 2), decode (.pf sb (flagsPattern pp n true v)) = .ok (.pfReset v n pp)) ∧
  (∀ (sb : Role) (n : Bool) (pp : BitVec 2),
    decode (.pf sb (flagsPattern pp n false false)) = .ok (.pfRegular false n pp))

/-- 30_encoding.md R80 to R88: no bit is dropped by decoding: whatever decodes encodes to the same bits. -/
def Obligations.EncodeOfDecodedIsTheSameBits : Prop :=
  (∀ (w : CommandWord) (i : Instr), decode (.cw w) = .ok i → encode i = .cw w) ∧
  (∀ (t : Byte) (i : Instr), decode (.ft t) = .ok i → encode i = .ft t) ∧
  (∀ (sb : Role) (f : Byte) (i : Instr), decode (.pf sb f) = .ok i →
    encode i = .pf .client f ∨ encode i = .pf .server f)

/-- 30_encoding.md R83: which words are illegal, and what issuing one in READY mode does. -/
def Obligations.IllegalWordsRaiseIllegalCmd : Prop :=
  (∀ w : CommandWord, (∃ i, decodeCommand w = .ok i) ↔ w ∈ legalWords) ∧
  (∀ w : CommandWord, w ∉ legalWords ↔
    w.extractLsb' 0 8 ∉ legalWords.map (fun l => l.extractLsb' 0 8) ∨ w.extractLsb' 9 7 ≠ 0 ∨
      (w.getLsbD 8 = true ∧ w.extractLsb' 0 8 ≠ 0x50 ∧ w.extractLsb' 0 8 ≠ 0x51)) ∧
  (∀ (s : State) (v : PortWord) (rest : List HostAction), s.pending = .regWrite 0x00 v :: rest → s.mode = .ready →
    v.setWidth 16 ∉ legalWords → step s = .next (afterFault (v.setWidth 16) 1 (acted rest s)))

/-- 30_encoding.md R84, R85, R86: the frame kind of every type byte, by its range. -/
def Obligations.TypeByteKindsByRange : Prop :=
  ∀ t : Byte,
    (0x08 ≤ t.toNat ∧ t.toNat ≤ 0x1F → decode (.ft t) = .error .reservedFrameType) ∧
    (0x20 ≤ t.toNat ∧ t.toNat ≤ 0x3F → decode (.ft t) = .ok (.ftCongestionFeedback (t.extractLsb' 0 5))) ∧
    (0x40 ≤ t.toNat ∧ t.toNat ≤ 0x7F → decode (.ft t) =
      .ok (.ftAck (t.getLsbD 5) (t.extractLsb' 3 2) (t.getLsbD 2) (t.extractLsb' 0 2))) ∧
    (0x80 ≤ t.toNat → decode (.ft t) =
      .ok (.ftStream (t.getLsbD 6) (t.getLsbD 5) (t.extractLsb' 2 3) (t.extractLsb' 0 2))) ∧
    (t.toNat ≤ 0x07 → some (decode (.ft t)) =
      ([.ok .ftPadding, .ok .ftRstStream, .ok .ftConnectionClose, .ok .ftGoaway, .ok .ftWindowUpdate, .ok .ftBlocked,
        .ok .ftStopWaiting, .ok .ftPing] : List (Except Illegal Instr))[t.toNat]?)

/-- 30_encoding.md R88, R89: a flags byte is refused exactly when bits 7, 6 and 3 are not 0, 0 and 1; otherwise the
match and mask of R88, in its order, choose the variant. -/
def Obligations.FlagsByteVariants : Prop :=
  ∀ (sb : Role) (f : Byte),
    ((∃ e, decode (.pf sb f) = .error e) ↔ f &&& 0xC8 ≠ 0x08) ∧
    (f &&& 0xCA = 0x0A → decode (.pf sb f) = .ok (.pfReset (f.getLsbD 0) (f.getLsbD 2) (f.extractLsb' 4 2))) ∧
    (f &&& 0xCB = 0x09 ∧ sb = .server →
      decode (.pf sb f) = .ok (.pfNegotiation (f.getLsbD 2) (f.extractLsb' 4 2))) ∧
    (f &&& 0xCA = 0x08 ∧ ¬(f &&& 0xCB = 0x09 ∧ sb = .server) →
      decode (.pf sb f) = .ok (.pfRegular (f.getLsbD 0) (f.getLsbD 2) (f.extractLsb' 4 2)))

/-- A few words and bytes written out from 30_encoding.md R82, R84 and R87 decode to what they stand for. -/
def Obligations.SampleWordsDecode : Prop :=
  decode (.cw 0x0001) = .ok .faultAck ∧ decode (.cw 0x0013) = .ok .pnEnc ∧ decode (.cw 0x0029) = .ok .uf16Enc ∧
  decode (.cw 0x0042) = .ok .ackDec ∧ decode (.cw 0x0150) = .ok (.pktParse .server) ∧
  decode (.cw 0x0051) = .ok (.pktSerReg .client) ∧
  decode (.ft 0b11101001) = .ok (.ftStream true true 0b010 0b01) ∧
  decode (.ft 0b01111011) = .ok (.ftAck true 0b11 false 0b11) ∧
  decode (.pf .client 0b00011000) = .ok (.pfRegular false false 0b01) ∧
  decode (.pf .server 0b00001001) = .ok (.pfNegotiation false 0b00) ∧
  decode (.pf .client 0b00001010) = .ok (.pfReset false false 0b00)

/-! ## The step -/

/-- 40_common.md R111: a write of a command word to CMD runs the instruction it decodes to. That the host's actions
stand in `pending` is the model's choice, log entry 1. -/
def Obligations.StepRunsTheDecodedCommand : Prop :=
  ∀ (s : State) (v : PortWord) (rest : List HostAction) (i : Instr),
    s.pending = .regWrite 0x00 v :: rest → decode (.cw (v.setWidth 16)) = .ok i → step s = exec i (acted rest s)

/-- 42_frame_type.md R162, 44_packet.md R206, 30_encoding.md R88: FT_DEC runs the type byte at CUR, and PKT_PARSE the
flags byte at CUR read under its role, once CMD holds the command's word: the model's reading of the FT and PF rows,
log entry 5. -/
def Obligations.StepRunsTheByteAtTheCursor : Prop :=
  ∀ (s : State) (rest : List HostAction) (i : Instr), s.mode = .ready → s.cur.toNat < s.len.toNat →
    (s.pending = .regWrite 0x00 0x0030 :: rest → decode (.ft (s.byte s.cur.toNat)) = .ok i →
      step s = exec i { acted rest s with cmd := 0x0030 }) ∧
    (∀ (sb : Role) (w : CommandWord), sb = .client ∧ w = 0x0050 ∨ sb = .server ∧ w = 0x0150 →
      s.pending = .regWrite 0x00 (w.setWidth 64) :: rest → decode (.pf sb (s.byte s.cur.toNat)) = .ok i →
      step s = exec i { acted rest s with cmd := w })

/-- 20_memory.md R63: the buffer port, in either mode. -/
def Obligations.BufferPortReadsAndWrites : Prop :=
  ∀ (s : State) (a : BitVec 16) (b : Byte) (rest : List HostAction),
    (s.pending = .bufRead a :: rest →
      step s = .next { s with
        pending := rest, answer := .byte (if a.toNat < s.cfg.bufSize then s.byte a.toNat else 0) }) ∧
    (s.pending = .bufWrite a b :: rest →
      ∃ t, step s = .next t ∧ t = { acted rest s with buf := t.buf } ∧
        ∀ x, t.byte x = if x = a.toNat ∧ a.toNat < s.cfg.bufSize then b else s.byte x)

/-- 10_state.md R34: a host write of a plain register stores the value truncated to the register's width, a host read
returns it zero-extended, and no other register changes but the window on RANGE that RIDX moves. -/
def Obligations.PlainRegistersStoreTruncatedValues : Prop :=
  ∀ (s : State) (idx W : Nat) (v : PortWord) (rest : List HostAction), (idx, W) ∈ plainRegisters →
    s.pending = .regWrite (BitVec.ofNat 8 idx) v :: rest →
    ∃ t, step s = .next t ∧ t.pending = rest ∧
      portValue (BitVec.ofNat 8 idx) t = BitVec.ofNat 64 (v.toNat % 2 ^ W) ∧
      (∀ j : BitVec 8, j.toNat ≠ idx → ¬(idx = 0x1C ∧ (j = 0x1D ∨ j = 0x1E)) → portValue j t = portValue j s) ∧
      (∀ a, t.byte a = s.byte a) ∧ (∀ k, t.rangeFirstAt k = s.rangeFirstAt k ∧ t.rangeLastAt k = s.rangeLastAt k)

/-- 10_state.md R23, R26, R30, R31, R33, R34: the registers with their own write rule, and the indices that name none. -/
def Obligations.RegistersWithTheirOwnWriteRule : Prop :=
  ∀ (s : State) (idx : BitVec 8) (v : PortWord) (rest : List HostAction), s.pending = .regWrite idx v :: rest →
    (idx = 0x01 → step s = .next (acted rest s)) ∧
    (idx = 0x03 → step s = .next { acted rest s with
      len := BitVec.ofNat 16 (min (v.toNat % 2 ^ 16) s.cfg.bufSize) }) ∧
    (idx = 0x1B → step s = .next { acted rest s with
      nranges := BitVec.ofNat 16 (min (v.toNat % 2 ^ 16) s.cfg.maxRanges) }) ∧
    (idx = 0x33 → step s = .next { acted rest s with supven := BitVec.ofNat 16 (v.toNat % 2 ^ s.cfg.nSupv) }) ∧
    (idx = 0x1D → ∃ t, step s = .next t ∧ sameButRange s t ∧ t.pending = rest ∧ ∀ k,
      t.rangeLastAt k = s.rangeLastAt k ∧
      t.rangeFirstAt k =
        if k = s.ridx.toNat ∧ s.ridx.toNat < s.cfg.maxRanges then BitVec.ofNat 48 v.toNat else s.rangeFirstAt k) ∧
    (idx = 0x1E → ∃ t, step s = .next t ∧ sameButRange s t ∧ t.pending = rest ∧ ∀ k,
      t.rangeFirstAt k = s.rangeFirstAt k ∧
      t.rangeLastAt k =
        if k = s.ridx.toNat ∧ s.ridx.toNat < s.cfg.maxRanges then BitVec.ofNat 48 v.toNat else s.rangeLastAt k) ∧
    (∀ j, idx.toNat = 0x40 + j → j < s.cfg.nSupv → s.cfg.nSupv ≤ 16 →
      step s = .next { acted rest s with supv := s.supv.set j (BitVec.ofNat 32 v.toNat) }) ∧
    (idx.toNat ∉ plainRegisters.map Prod.fst → idx.toNat ∉ [0x00, 0x01, 0x03, 0x1B, 0x1D, 0x1E, 0x33] →
      ¬(0x40 ≤ idx.toNat ∧ idx.toNat < 0x40 + s.cfg.nSupv) →
      step s = .next (acted rest s) ∧ portValue idx s = 0)

/-- 10_state.md R34, R26, R31: a host read answers the register that the map of R34 has at the index, zero-extended, or 0
where it has none, and changes nothing else. -/
def Obligations.RegisterReads : Prop :=
  ∀ (s : State) (idx : BitVec 8) (rest : List HostAction), s.pending = .regRead idx :: rest →
    step s = .next { s with pending := rest, answer := .register (portValue idx s) } ∧
    (∀ e ∈ registerMap s, e.1 = idx.toNat →
      step s = .next { s with pending := rest, answer := .register (BitVec.ofNat 64 e.2) }) ∧
    ((∀ e ∈ registerMap s, e.1 ≠ idx.toNat) →
      step s = .next { s with pending := rest, answer := .register 0 })

/-- 70_reset_and_hazards.md R260, 10_state.md R37: after the reset input, in either mode, the block is READY with ERR
0, every register but the window on RANGE reads 0, the version set is empty, and BUF and RANGE hold the unspecified
contents of that reset (the model's free values, log entries 3 and 4). -/
def Obligations.ResetInputGivesTheResetState : Prop :=
  ∀ (s : State) (rest : List HostAction), s.pending = .reset :: rest →
    ∃ t, step s = .next t ∧ t.mode = .ready ∧ t.err = 0 ∧ t.pending = rest ∧ t.cfg = s.cfg ∧
      (∀ idx : BitVec 8, idx ≠ 0x1D → idx ≠ 0x1E → portValue idx t = 0) ∧ (∀ v, t.supported v = false) ∧
      (∀ a, t.byte a = Config.resetByte (s.epoch + 1) a) ∧
      (∀ k, t.rangeFirstAt k = Config.resetRangeFirst (s.epoch + 1) k ∧
        t.rangeLastAt k = Config.resetRangeLast (s.epoch + 1) k)

/-! ## Whole-machine rules -/

/-- The reset state meets the invariants, for any parameters within the bounds of 00_scope.md R5. -/
def Obligations.ResetStateIsLegal : Prop :=
  State.reset.Legal ∧
  ∀ (cfg : Config.Params) (epoch : Nat) (pending : List HostAction), cfg.ok → (State.initial cfg epoch pending).Legal

/-- 10_state.md R23, R26, R30, R33: whatever the host does next, a step from a legal state leads to a legal state, and
no step changes the parameters. -/
def Obligations.EveryStepKeepsStateLegal : Prop :=
  ∀ s t : State, s.Legal → step s = .next t → t.Legal ∧ t.cfg = s.cfg

/-- 60_exceptions.md R230, 70_reset_and_hazards.md R261: no host action and no instruction stops the block. -/
def Obligations.NothingStopsTheBlock : Prop :=
  (∀ s : State, Completes (step s)) ∧ ∀ (i : Instr) (s : State), Completes (exec i s)

/-- 60_exceptions.md R238, R233: "The state after a fault is exactly the state before the command plus the three
writes". A type byte or flags byte met by a command leaves the command's word in CMD (the
model's reading, log entry 5). -/
def Obligations.FaultsArePrecise : Prop :=
  ∀ (i : Instr) (s t : State), s.mode = .ready → exec i s = .next t → t.mode = .faulted →
    ∃ code, 1 ≤ code ∧ code ≤ 11 ∧
      t = afterFault (match encode i with | .cw w => w | .ft _ => s.cmd | .pf _ _ => s.cmd) code s

/-- 60_exceptions.md R235, 40_common.md R111: in FAULTED mode a write to CMD of any word other than 0x0001 is dropped,
and no instruction but FAULT_ACK does anything (for a type or flags byte run by itself: the model's reading, log
entry 5). -/
def Obligations.FaultedModeDropsCommands : Prop :=
  (∀ (s : State) (v : PortWord) (rest : List HostAction), s.mode = .faulted →
    s.pending = .regWrite 0x00 v :: rest → v.setWidth 16 ≠ (0x0001 : CommandWord) → step s = .next (acted rest s)) ∧
  ∀ (i : Instr) (s : State), s.mode = .faulted → i ≠ .faultAck → exec i s = .next s

/-- 40_common.md R120: FAULT_ACK in both modes. -/
def Obligations.FaultAckReturnsToReady : Prop :=
  decode (.cw 0x0001) = .ok .faultAck ∧
  ∀ s : State,
    (s.mode = .faulted → exec .faultAck s = .next { s with mode := .ready, err := 0 }) ∧
    (s.mode = .ready → exec .faultAck s = .next { s with cmd := 0x0001 })

/-- 40_common.md R120, R112: FAULT_ACK after a fault leaves the block as it was before the faulting command, except
that CMD holds the faulting word. -/
def Obligations.FaultThenFaultAckRestoresAllButCmd : Prop :=
  ∀ (i : Instr) (s t : State), s.Legal → s.mode = .ready → exec i s = .next t → t.mode = .faulted →
    exec .faultAck t = .next { s with cmd := t.cmd }

/-- 10_state.md R28: COND is written by the three predicate commands and by no other instruction. -/
def Obligations.OnlyPredicatesWriteCond : Prop :=
  ∀ (i : Instr) (s t : State), exec i s = .next t → i ∉ predicates → t.cond = s.cond

/-- 20_memory.md R64, 10_state.md R22, R23: no command produces a CUR above BUF_SIZE; only the encode and serialize
commands write BUF or LEN, and they never lower LEN. -/
def Obligations.CursorLengthAndBufferUse : Prop :=
  (∀ (i : Instr) (s t : State), s.Legal → exec i s = .next t → t.cur = s.cur ∨ t.cur.toNat ≤ s.cfg.bufSize) ∧
  (∀ (i : Instr) (s t : State), exec i s = .next t → i ∉ serializers →
    t.len = s.len ∧ t.buf = s.buf ∧ ∀ a, t.byte a = s.byte a) ∧
  ∀ (i : Instr) (s t : State), s.Legal → exec i s = .next t → s.len.toNat ≤ t.len.toNat

/-- 10_state.md R38: no instruction writes RIDX, the version set, the parameters, or the host's side. -/
def Obligations.NoInstructionWritesTheHostsSettings : Prop :=
  ∀ (i : Instr) (s t : State), exec i s = .next t →
    t.ridx = s.ridx ∧ t.supv = s.supv ∧ t.supven = s.supven ∧ t.cfg = s.cfg ∧ t.epoch = s.epoch ∧
      t.pending = s.pending ∧ t.answer = s.answer

/-! ## The integer unit -/

/-- 41_vli.md R135, R140, R145: the canonical width and flag code of a value, or E_VALUE_RANGE. -/
def Obligations.WidthCommands : Prop :=
  decode (.cw 0x0010) = .ok .pnWidth ∧ decode (.cw 0x0018) = .ok .sidWidth ∧ decode (.cw 0x0020) = .ok .offWidth ∧
  ∀ s : State, s.mode = .ready →
    (1 ≤ s.val.toNat ∧ s.val.toNat ≤ 0xFFFFFFFFFFFF → exec .pnWidth s = .next { s with
      cmd := 0x0010, wid := BitVec.ofNat 4 (pnWidth s.val.toNat)
      code := BitVec.ofNat 3 (pnCode (pnWidth s.val.toNat)) }) ∧
    (s.val.toNat < 1 ∨ 0xFFFFFFFFFFFF < s.val.toNat → exec .pnWidth s = .next (afterFault 0x0010 5 s)) ∧
    (s.val.toNat ≤ 0xFFFFFFFF → exec .sidWidth s = .next { s with
      cmd := 0x0018, wid := BitVec.ofNat 4 (sidWidth s.val.toNat)
      code := BitVec.ofNat 3 (sidCode (sidWidth s.val.toNat)) }) ∧
    (0xFFFFFFFF < s.val.toNat → exec .sidWidth s = .next (afterFault 0x0018 5 s)) ∧
    (s.val.toNat ≤ 0xFFFFFFFFFFFFFF → exec .offWidth s = .next { s with
      cmd := 0x0020, wid := BitVec.ofNat 4 (offWidth s.val.toNat)
      code := BitVec.ofNat 3 (offCode (offWidth s.val.toNat)) }) ∧
    (0xFFFFFFFFFFFFFF < s.val.toNat → exec .offWidth s = .next (afterFault 0x0020 5 s))

/-- 41_vli.md R136, R141, R146: flag code to byte width, by the tables of R132, R133 and R134, or E_BAD_WIDTH. -/
def Obligations.CodeToWidthCommands : Prop :=
  decode (.cw 0x0011) = .ok .pnC2w ∧ decode (.cw 0x0019) = .ok .sidC2w ∧ decode (.cw 0x0021) = .ok .offC2w ∧
  ∀ s : State, s.mode = .ready →
    (∀ w, ([1, 2, 4, 6] : List (BitVec 4))[s.code.toNat]? = some w →
      exec .pnC2w s = .next { s with cmd := 0x0011, wid := w }) ∧
    (3 < s.code.toNat → exec .pnC2w s = .next (afterFault 0x0011 4 s)) ∧
    (∀ w, ([1, 2, 3, 4] : List (BitVec 4))[s.code.toNat]? = some w →
      exec .sidC2w s = .next { s with cmd := 0x0019, wid := w }) ∧
    (3 < s.code.toNat → exec .sidC2w s = .next (afterFault 0x0019 4 s)) ∧
    (∀ w, ([0, 2, 3, 4, 5, 6, 7] : List (BitVec 4))[s.code.toNat]? = some w →
      exec .offC2w s = .next { s with cmd := 0x0021, wid := w }) ∧
    (s.code.toNat = 7 → exec .offC2w s = .next (afterFault 0x0021 4 s))

/-- 41_vli.md R137, R142, R147: the three decode commands, their results and their faults in their order. -/
def Obligations.IntegerDecode : Prop :=
  decode (.cw 0x0012) = .ok .pnDec ∧ decode (.cw 0x001A) = .ok .sidDec ∧ decode (.cw 0x0022) = .ok .offDec ∧
  ∀ (dec : Instr) (word : CommandWord) (widths : List Nat) (s : State), s.mode = .ready →
    (dec = .pnDec ∧ word = 0x0012 ∧ widths = [1, 2, 4, 6] ∨ dec = .sidDec ∧ word = 0x001A ∧ widths = [1, 2, 3, 4] ∨
      dec = .offDec ∧ word = 0x0022 ∧ widths = [0, 2, 3, 4, 5, 6, 7]) →
    (s.wid.toNat ∉ widths → exec dec s = .next (afterFault word 4 s)) ∧
    (s.wid.toNat ∈ widths →
      (s.len.toNat < s.cur.toNat + s.wid.toNat → exec dec s = .next (afterFault word 2 s)) ∧
      (s.cur.toNat + s.wid.toNat ≤ s.len.toNat →
        (dec = .pnDec ∧ s.memRead s.cur.toNat s.wid.toNat = 0 → exec dec s = .next (afterFault word 5 s)) ∧
        (¬(dec = .pnDec ∧ s.memRead s.cur.toNat s.wid.toNat = 0) → exec dec s = .next { s with
          cmd := word, val := BitVec.ofNat 64 (s.memRead s.cur.toNat s.wid.toNat)
          cur := BitVec.ofNat 16 (s.cur.toNat + s.wid.toNat) })))

/-- 41_vli.md R138, R143, R148: the three encode commands store the value in its canonical width, little-endian, and
report the width and its code; or they fault, the value checked before the space. -/
def Obligations.IntegerEncode : Prop :=
  decode (.cw 0x0013) = .ok .pnEnc ∧ decode (.cw 0x001B) = .ok .sidEnc ∧ decode (.cw 0x0023) = .ok .offEnc ∧
  ∀ s : State, s.mode = .ready →
    (s.val.toNat < 1 ∨ 0xFFFFFFFFFFFF < s.val.toNat → exec .pnEnc s = .next (afterFault 0x0013 5 s)) ∧
    (1 ≤ s.val.toNat ∧ s.val.toNat ≤ 0xFFFFFFFFFFFF →
      (s.cfg.bufSize < s.cur.toNat + pnWidth s.val.toNat → exec .pnEnc s = .next (afterFault 0x0013 3 s)) ∧
      (s.cur.toNat + pnWidth s.val.toNat ≤ s.cfg.bufSize →
        StoresAtCursor .pnEnc 0x0013 s
          { s with wid := BitVec.ofNat 4 (pnWidth s.val.toNat), code := BitVec.ofNat 3 (pnCode (pnWidth s.val.toNat)) }
          (leBytes (pnWidth s.val.toNat) s.val.toNat))) ∧
    (0xFFFFFFFF < s.val.toNat → exec .sidEnc s = .next (afterFault 0x001B 5 s)) ∧
    (s.val.toNat ≤ 0xFFFFFFFF →
      (s.cfg.bufSize < s.cur.toNat + sidWidth s.val.toNat → exec .sidEnc s = .next (afterFault 0x001B 3 s)) ∧
      (s.cur.toNat + sidWidth s.val.toNat ≤ s.cfg.bufSize →
        StoresAtCursor .sidEnc 0x001B s
          { s with wid := BitVec.ofNat 4 (sidWidth s.val.toNat), code := BitVec.ofNat 3 (sidWidth s.val.toNat - 1) }
          (leBytes (sidWidth s.val.toNat) s.val.toNat))) ∧
    (0xFFFFFFFFFFFFFF < s.val.toNat → exec .offEnc s = .next (afterFault 0x0023 5 s)) ∧
    (s.val.toNat ≤ 0xFFFFFFFFFFFFFF →
      (s.cfg.bufSize < s.cur.toNat + offWidth s.val.toNat → exec .offEnc s = .next (afterFault 0x0023 3 s)) ∧
      (s.cur.toNat + offWidth s.val.toNat ≤ s.cfg.bufSize →
        StoresAtCursor .offEnc 0x0023 s
          { s with
            wid := BitVec.ofNat 4 (offWidth s.val.toNat), code := BitVec.ofNat 3 (offCode (offWidth s.val.toNat)) }
          (leBytes (offWidth s.val.toNat) s.val.toNat)))

/-- 41_vli.md R139, R144: the packet number successor wraps from 2^48 - 1 to 1; the stream id successor keeps the
parity and faults where it would leave the range. -/
def Obligations.Successors : Prop :=
  decode (.cw 0x0014) = .ok .pnNext ∧ decode (.cw 0x001C) = .ok .sidNext ∧
  ∀ s : State, s.mode = .ready →
    (s.val.toNat < 1 ∨ 0xFFFFFFFFFFFF < s.val.toNat → exec .pnNext s = .next (afterFault 0x0014 5 s)) ∧
    (s.val.toNat = 0xFFFFFFFFFFFF → exec .pnNext s = .next { s with cmd := 0x0014, val := 1 }) ∧
    (1 ≤ s.val.toNat ∧ s.val.toNat < 0xFFFFFFFFFFFF →
      exec .pnNext s = .next { s with cmd := 0x0014, val := s.val + 1 }) ∧
    (0xFFFFFFFF < s.val.toNat + 2 → exec .sidNext s = .next (afterFault 0x001C 5 s)) ∧
    (s.val.toNat + 2 ≤ 0xFFFFFFFF → exec .sidNext s = .next { s with cmd := 0x001C, val := s.val + 2 })

/-- 41_vli.md R132, R133, R134: "Each numeric id type picks the smallest byte width from its fixed width set capable of
representing the current value", and the code functions are inverse to the width tables. -/
def Obligations.WidthsAreMinimal : Prop :=
  (∀ v, v ≤ 0xFFFFFFFFFFFF → pnWidth v ∈ [1, 2, 4, 6] ∧ v < 256 ^ pnWidth v ∧
    ∀ w ∈ [1, 2, 4, 6], v < 256 ^ w → pnWidth v ≤ w) ∧
  (∀ v, v ≤ 0xFFFFFFFF → sidWidth v ∈ [1, 2, 3, 4] ∧ v < 256 ^ sidWidth v ∧
    ∀ w ∈ [1, 2, 3, 4], v < 256 ^ w → sidWidth v ≤ w) ∧
  (∀ v, v ≤ 0xFFFFFFFFFFFFFF → offWidth v ∈ [0, 2, 3, 4, 5, 6, 7] ∧ v < 256 ^ offWidth v ∧
    ∀ w ∈ [0, 2, 3, 4, 5, 6, 7], v < 256 ^ w → offWidth v ≤ w) ∧
  (∀ c, c ≤ 3 → pnCode (pnOfCode c) = c ∧ sidCode (sidOfCode c) = c) ∧ (∀ c, c ≤ 6 → offCode (offOfCode c) = c)

/-- 41_vli.md R152 (a): what an encode command wrote, the decode command of the same type reads back, in any state that
holds those bytes, that cursor and that width. -/
def Obligations.IntegerRoundTrip : Prop :=
  ∀ (enc dec : Instr), (enc, dec) ∈ [(Instr.pnEnc, Instr.pnDec), (.sidEnc, .sidDec), (.offEnc, .offDec)] →
    ∀ s t u : State, s.Legal → s.mode = .ready → exec enc s = .next t → t.mode = .ready →
      u.mode = .ready → u.cur = s.cur → u.wid = t.wid → t.cur.toNat ≤ u.len.toNat →
      (∀ a, s.cur.toNat ≤ a → a < t.cur.toNat → u.byte a = t.byte a) →
      ∃ r, exec dec u = .next r ∧ r.mode = .ready ∧ r.val = s.val ∧ r.cur = t.cur

/-- 20_memory.md R60, R61, R65: MemRead of the bytes that MemWrite stores, little-endian. -/
def Obligations.MemReadOfMemWrite : Prop :=
  ∀ (s : State) (a n v : Nat), (leBytes n v).length = n ∧
    (∀ i, i < n → (leBytes n v)[i]? = some (BitVec.ofNat 8 (v / 2 ^ (8 * i) % 256))) ∧
    s.memRead a n = ((List.range n).map fun i => (s.byte (a + i)).toNat * 2 ^ (8 * i)).sum ∧
    (v < 2 ^ (8 * n) → BytesAt s a (leBytes n v) → s.memRead a n = v)

/-! ## The 16-bit float -/

/-- 41_vli.md R150, R151: the two conversions, in place in VAL. -/
def Obligations.FloatCommands : Prop :=
  decode (.cw 0x0028) = .ok .uf16Dec ∧ decode (.cw 0x0029) = .ok .uf16Enc ∧
  ∀ s : State, s.mode = .ready →
    exec .uf16Dec s = .next { s with cmd := 0x0028, val := BitVec.ofNat 64 (uf16Dec (s.val.toNat % 2 ^ 16)) } ∧
    exec .uf16Enc s = .next { s with cmd := 0x0029, val := BitVec.ofNat 64 (uf16Enc s.val.toNat) }

/-- 41_vli.md R149, its laws: encode inverts decode on all codes, decode is strictly increasing, encode truncates and
is exact on representable values, and saturates at UF16_MAX. The spec marks the format as general knowledge (log
entry 12). -/
def Obligations.FloatLaws : Prop :=
  (∀ c, c < 65536 → uf16Enc (uf16Dec c) = c) ∧
  (∀ c d, c < d → d < 65536 → uf16Dec c < uf16Dec d) ∧
  (∀ v, v ≤ 0x3FFC0000000 → uf16Dec (uf16Enc v) ≤ v ∧
    (uf16Dec (uf16Enc v) = v ↔ v < 4096 ∨ ∃ m e, 2048 ≤ m ∧ m ≤ 4095 ∧ 1 ≤ e ∧ e ≤ 30 ∧ v = m * 2 ^ e)) ∧
  (∀ v, 0x3FFC0000000 ≤ v → uf16Dec (uf16Enc v) = 0x3FFC0000000) ∧ (∀ v, uf16Enc v < 65536)

/-! ## Frame types -/

/-- 42_frame_type.md R161, R162, 10_state.md R29: what each type byte leaves in TB, FINFO and FWID, run by itself and
by FT_DEC that meets it at CUR. CUR is not advanced. -/
def Obligations.TypeBytesClassify : Prop :=
  ∀ (s : State) (i : Instr) (t : Byte) (fi : Nat) (fw : Nat), s.mode = .ready → encode i = .ft t →
    ((∃ k, k ≤ 7 ∧ t.toNat = k ∧ fi = k ∧ fw = 0) ∨
      (∃ x, i = .ftCongestionFeedback x ∧ fi = 8 ∧ fw = 0) ∨
      (∃ n ll u mm, i = .ftAck n ll u mm ∧
        fi = 9 + n.toNat * 2 ^ 11 + ll.toNat * 2 ^ 12 + mm.toNat * 2 ^ 14 ∧
        fw = pnOfCode ll.toNat * 2 ^ 6 + pnOfCode mm.toNat * 2 ^ 9) ∨
      (∃ f d ooo ss, i = .ftStream f d ooo ss ∧ ooo ≠ 7 ∧
        fi = 10 + f.toNat * 2 ^ 4 + d.toNat * 2 ^ 5 + ooo.toNat * 2 ^ 6 + ss.toNat * 2 ^ 9 ∧
        fw = offOfCode ooo.toNat + (ss.toNat + 1) * 2 ^ 3)) →
    exec i s = .next { s with tb := t, finfo := BitVec.ofNat 16 fi, fwid := BitVec.ofNat 12 fw } ∧
    (s.cur.toNat < s.len.toNat → s.byte s.cur.toNat = t → exec .ftDec s = .next
      { s with cmd := 0x0030, tb := t, finfo := BitVec.ofNat 16 fi, fwid := BitVec.ofNat 12 fw })

/-- 42_frame_type.md R162: the faults of FT_DEC. -/
def Obligations.FrameDecodeFaults : Prop :=
  decode (.cw 0x0030) = .ok .ftDec ∧
  ∀ s : State, s.mode = .ready →
    (s.len.toNat ≤ s.cur.toNat → exec .ftDec s = .next (afterFault 0x0030 2 s)) ∧
    (s.cur.toNat < s.len.toNat →
      (0x08 ≤ (s.byte s.cur.toNat).toNat ∧ (s.byte s.cur.toNat).toNat ≤ 0x1F →
        exec .ftDec s = .next (afterFault 0x0030 6 s)) ∧
      (0x80 ≤ (s.byte s.cur.toNat).toNat ∧ field (s.byte s.cur.toNat) 4 2 = 7 →
        exec .ftDec s = .next (afterFault 0x0030 4 s))) ∧
    (∀ f d ss, exec (.ftStream f d 7 ss) s = .next (afterFault s.cmd 4 s))

/-- 42_frame_type.md R163, R164: FT_ENC stores the byte that FINFO composes, or faults. -/
def Obligations.FrameEncode : Prop :=
  decode (.cw 0x0031) = .ok .ftEnc ∧
  ∀ s : State, s.mode = .ready →
    (11 ≤ field s.finfo 3 0 → exec .ftEnc s = .next (afterFault 0x0031 11 s)) ∧
    (field s.finfo 3 0 = 10 ∧ field s.finfo 8 6 = 7 → exec .ftEnc s = .next (afterFault 0x0031 4 s)) ∧
    (∀ t : Nat,
      (field s.finfo 3 0 ≤ 7 ∧ t = field s.finfo 3 0 ∨
        field s.finfo 3 0 = 8 ∧ t = 0x20 ∨
        field s.finfo 3 0 = 9 ∧
          t = 0x40 + field s.finfo 11 11 * 32 + field s.finfo 13 12 * 8 + field s.finfo 15 14 ∨
        field s.finfo 3 0 = 10 ∧ field s.finfo 8 6 ≠ 7 ∧
          t = 0x80 + field s.finfo 4 4 * 64 + field s.finfo 5 5 * 32 + field s.finfo 8 6 * 4 + field s.finfo 10 9) →
      (s.cfg.bufSize < s.cur.toNat + 1 → exec .ftEnc s = .next (afterFault 0x0031 3 s)) ∧
      (s.cur.toNat + 1 ≤ s.cfg.bufSize →
        StoresAtCursor .ftEnc 0x0031 s { s with tb := BitVec.ofNat 8 t } [BitVec.ofNat 8 t]))

/-- 42_frame_type.md R164: composing the FINFO that a type byte leaves gives the byte back, its ignored bits cleared. -/
def Obligations.ComposeInvertsClassify : Prop :=
  ∀ (i : Instr) (s t : State) (b : Byte), s.mode = .ready → encode i = .ft b → exec i s = .next t → t.mode = .ready →
    ftCompose t.finfo = .ok
      (if b &&& 0xC0 = 0x40 then b &&& 0xFB else if b &&& 0xE0 = 0x20 then 0x20 else b)

/-! ## Acknowledgements -/

/-- 43_ack.md R171: `validateAckRanges` in the source's words. -/
def Obligations.AckValidMeansTheSourcesConditions : Prop :=
  ∀ (L : Nat) (rs : List AckRange), ackValid L rs = true ↔
    rs = [] ∨
      (2 ≤ rs.length ∧ (∀ r, rs[0]? = some r → r.last = L) ∧ (∀ r ∈ rs, r.first ≤ r.last) ∧
        ∀ i r q, rs[i]? = some r → rs[i + 1]? = some q → q.last + 2 ≤ r.first)

/-- 43_ack.md R172, R173, R174: the two predicates write COND and nothing else. -/
def Obligations.AckPredicates : Prop :=
  decode (.cw 0x0040) = .ok .ackValidate ∧ decode (.cw 0x0041) = .ok .ackAcks ∧
  ∀ s : State, s.mode = .ready →
    (s.ranges.length = s.nranges.toNat ∧ ∀ i, i < s.nranges.toNat →
      s.ranges[i]? = some ⟨(s.rangeFirstAt i).toNat, (s.rangeLastAt i).toNat⟩) ∧
    exec .ackValidate s = .next { s with
      cmd := 0x0040, cond := if ackValid s.largest.toNat s.ranges = true then 1 else 0 } ∧
    (((s.lowest.toNat ≤ s.val.toNat ∧ s.val.toNat ≤ s.largest.toNat) ∧
        (s.nranges = 0 ∨ ∃ i, i < s.nranges.toNat ∧
          (s.rangeFirstAt i).toNat ≤ s.val.toNat ∧ s.val.toNat ≤ (s.rangeLastAt i).toNat) →
      exec .ackAcks s = .next { s with cmd := 0x0041, cond := 1 })) ∧
    (¬((s.lowest.toNat ≤ s.val.toNat ∧ s.val.toNat ≤ s.largest.toNat) ∧
        (s.nranges = 0 ∨ ∃ i, i < s.nranges.toNat ∧
          (s.rangeFirstAt i).toNat ≤ s.val.toNat ∧ s.val.toNat ≤ (s.rangeLastAt i).toNat)) →
      exec .ackAcks s = .next { s with cmd := 0x0041, cond := 0 })

/-- 43_ack.md R175, R176, R177: an ACK frame without missing ranges, field by field; the timestamp section is consumed,
whatever its count, and stored nowhere. -/
def Obligations.AckDecodeWithoutMissingRanges : Prop :=
  ∀ (s : State) (t : Byte) (law abw L dc fb nts z : Nat), s.mode = .ready → t = s.byte s.cur.toNat →
    field t 7 5 = 2 → law = codedWidth t 4 3 → abw = codedWidth t 1 0 →
    L = s.memRead (s.cur.toNat + 1) law → dc = s.memRead (s.cur.toNat + 1 + law) 2 →
    fb = s.memRead (s.cur.toNat + 3 + law) abw → nts = (s.byte (s.cur.toNat + 3 + law + abw)).toNat →
    z = s.cur.toNat + 4 + law + abw + (if nts = 0 then 0 else 5 + 3 * (nts - 1)) → z ≤ s.len.toNat → 1 ≤ fb → fb ≤ L →
    exec .ackDec s = .next { s with
      cmd := 0x0042, largest := BitVec.ofNat 48 L, lowest := BitVec.ofNat 48 (L - fb + 1)
      delay := BitVec.ofNat 64 (uf16Dec dc), nranges := 0, cur := BitVec.ofNat 16 z }

/-- 43_ack.md R177, R176, 60_exceptions.md R236: the faults of ACK_DEC, in the order `ack_parse` meets them: the type byte
and the largest acknowledged; a field up to the first block cut off; the first block 0 or above the largest; a run that
reaches packet number 0; the pairs or the timestamp section cut off; with N = 1 a list that `ack_valid` rejects. -/
def Obligations.AckDecodeFaults : Prop :=
  decode (.cw 0x0042) = .ok .ackDec ∧
  ∀ (s : State) (t : Byte) (law : Nat) (x : AckWire), s.mode = .ready → t = s.byte s.cur.toNat →
    law = codedWidth t 4 3 → x = ackWireAt s s.cur.toNat →
    (s.len.toNat < s.cur.toNat + 1 → exec .ackDec s = .next (afterFault 0x0042 2 s)) ∧
    (s.cur.toNat + 1 ≤ s.len.toNat →
      (field t 7 6 ≠ 1 → exec .ackDec s = .next (afterFault 0x0042 6 s)) ∧
      (field t 7 6 = 1 →
        (s.len.toNat < s.cur.toNat + 1 + law → exec .ackDec s = .next (afterFault 0x0042 2 s)) ∧
        (s.cur.toNat + 1 + law ≤ s.len.toNat →
          (s.memRead (s.cur.toNat + 1) law = 0 → exec .ackDec s = .next (afterFault 0x0042 5 s)) ∧
          (s.memRead (s.cur.toNat + 1) law ≠ 0 →
            (s.len.toNat < x.pairs → exec .ackDec s = .next (afterFault 0x0042 2 s)) ∧
            (x.pairs ≤ s.len.toNat →
              (x.firstBlock = 0 ∨ x.largest < x.firstBlock → exec .ackDec s = .next (afterFault 0x0042 7 s)) ∧
              (1 ≤ x.firstBlock → x.firstBlock ≤ x.largest →
                ((∃ k, x.overruns s k) → exec .ackDec s = .next (afterFault 0x0042 7 s)) ∧
                ((∀ k, ¬x.overruns s k) →
                  (s.len.toNat < x.next → exec .ackDec s = .next (afterFault 0x0042 2 s)) ∧
                  (x.next ≤ s.len.toNat → x.missing = true → x.invalid s →
                    exec .ackDec s = .next (afterFault 0x0042 7 s)))))))))

/-- 43_ack.md R177, R176: where `ack_parse` answers, ACK_DEC puts exactly that answer into the ACK registers; entries of
RANGE at and above the new NRANGES are kept, and nothing else changes but CMD and CUR. Of a frame with missing ranges that
AckDecodeFaults does not turn away, the ranges are the first block and one for each pair with a block length, in their
order, each below the numbers that the pairs before it cover and its own gap. -/
def Obligations.AckDecodeWritesWhatItParsed : Prop :=
  (∀ (s : State) (a : AckFrame), s.mode = .ready → ackParse s s.cur.toNat = .ok a →
    ∃ t, exec .ackDec s = .next t ∧
      t = { s with
            cmd := 0x0042, largest := BitVec.ofNat 48 a.largest, lowest := BitVec.ofNat 48 a.lowest
            delay := BitVec.ofNat 64 a.delay, nranges := BitVec.ofNat 16 a.ranges.length
            cur := BitVec.ofNat 16 a.next, rangeFirst := t.rangeFirst, rangeLast := t.rangeLast } ∧
      (∀ i r, a.ranges[i]? = some r →
        t.rangeFirstAt i = BitVec.ofNat 48 r.first ∧ t.rangeLastAt i = BitVec.ofNat 48 r.last) ∧
      (∀ i, a.ranges.length ≤ i → t.rangeFirstAt i = s.rangeFirstAt i ∧ t.rangeLastAt i = s.rangeLastAt i)) ∧
  ∀ (s : State) (x : AckWire), s.mode = .ready → x = ackWireAt s s.cur.toNat → field (s.byte s.cur.toNat) 7 5 = 3 →
    x.next ≤ s.len.toNat → 1 ≤ x.firstBlock → x.firstBlock ≤ x.largest → (∀ k, ¬x.overruns s k) → ¬x.invalid s →
    ∃ t, exec .ackDec s = .next t ∧
      t = { s with
            cmd := 0x0042, largest := BitVec.ofNat 48 x.largest, lowest := t.lowest
            delay := BitVec.ofNat 64 (uf16Dec x.delayCode), nranges := BitVec.ofNat 16 (1 + x.runs s x.count)
            cur := BitVec.ofNat 16 x.next, rangeFirst := t.rangeFirst, rangeLast := t.rangeLast } ∧
      t.rangeFirstAt 0 = BitVec.ofNat 48 x.first ∧ t.rangeLastAt 0 = BitVec.ofNat 48 x.largest ∧
      (∀ k, k < x.count → x.run s k ≠ 0 →
        t.rangeFirstAt (1 + x.runs s k) = BitVec.ofNat 48 (x.first - x.span s (k + 1)) ∧
        t.rangeLastAt (1 + x.runs s k) = BitVec.ofNat 48 (x.first - x.span s k - x.gap s k - 1)) ∧
      t.lowest = t.rangeFirstAt (x.runs s x.count) ∧
      (∀ i, 1 + x.runs s x.count ≤ i → t.rangeFirstAt i = s.rangeFirstAt i ∧ t.rangeLastAt i = s.rangeLastAt i)

/-- 43_ack.md R176: continuation pairs (block length 0) only add their gaps to the next run, however the gap is spread;
the run is `len` long and ends `gap + 1` below the previous `first`; an incomplete trailing split gives no range; a run
that would reach packet number 0 or below is E_BAD_ACK. -/
def Obligations.ContinuationPairsMerge : Prop :=
  ∀ (s : State) (abw p pf g len : Nat) (gs : List Nat), (∀ x ∈ gs, x ≤ 255) → g ≤ 255 → len < 256 ^ abw →
    BytesAt s p (pairBytes abw (gs.map (fun x => (x, 0)) ++ [(g, len)])) →
    p + (gs.length + 1) * (1 + abw) ≤ s.len.toNat →
    (len = 0 → ackPairs s abw (gs.length + 1) p 0 pf = .ok ([], p + (gs.length + 1) * (1 + abw))) ∧
    (1 ≤ len → pf ≤ gs.sum + g + len → ackPairs s abw (gs.length + 1) p 0 pf = .error .badAck) ∧
    (1 ≤ len → gs.sum + g + len < pf →
      ackPairs s abw (gs.length + 1) p 0 pf =
        .ok ([⟨pf - (gs.sum + g) - len, pf - (gs.sum + g) - 1⟩], p + (gs.length + 1) * (1 + abw)))

/-- 43_ack.md R176, R180: every list that ACK_DEC delivers is valid, has at most 256 ranges, and reaches no packet
number below 1; LOWEST is the first of its last range. -/
def Obligations.AckDecodeDeliversValidRanges : Prop :=
  ∀ (s t : State), s.Legal → s.mode = .ready → exec .ackDec s = .next t → t.mode = .ready →
    ackValid t.largest.toNat t.ranges = true ∧ t.nranges.toNat ≤ 256 ∧ 1 ≤ t.lowest.toNat ∧
      t.lowest.toNat ≤ t.largest.toNat ∧
      (0 < t.nranges.toNat → t.lowest = t.rangeFirstAt (t.nranges.toNat - 1)) ∧
      s.cur.toNat < t.cur.toNat ∧ t.cur.toNat ≤ s.len.toNat

/-- 43_ack.md R178: ACK_ENC of an empty list, and its faults. -/
def Obligations.AckEncodeOfEmptyListAndFaults : Prop :=
  decode (.cw 0x0043) = .ok .ackEnc ∧
  ∀ s : State, s.mode = .ready →
    (s.largest = 0 → exec .ackEnc s = .next (afterFault 0x0043 5 s)) ∧
    (s.largest ≠ 0 → s.nranges = 0 → s.lowest = 0 ∨ s.largest.toNat < s.lowest.toNat →
      exec .ackEnc s = .next (afterFault 0x0043 7 s)) ∧
    (s.largest ≠ 0 → s.nranges ≠ 0 → ackValid s.largest.toNat s.ranges = false ∨
        s.rangeFirstAt (s.nranges.toNat - 1) = 0 → exec .ackEnc s = .next (afterFault 0x0043 7 s)) ∧
    (∀ fb law abw : Nat, s.nranges = 0 → 1 ≤ s.lowest.toNat → s.lowest.toNat ≤ s.largest.toNat →
      fb = s.largest.toNat - s.lowest.toNat + 1 → law = pnWidth s.largest.toNat → abw = pnWidth fb →
      (s.cfg.bufSize < s.cur.toNat + (4 + law + abw) → exec .ackEnc s = .next (afterFault 0x0043 3 s)) ∧
      (s.cur.toNat + (4 + law + abw) ≤ s.cfg.bufSize →
        StoresAtCursor .ackEnc 0x0043 s { s with aemit := 0 }
          ([BitVec.ofNat 8 (0x40 + pnCode law * 8 + pnCode abw)] ++ leBytes law s.largest.toNat ++
            leBytes 2 (uf16Enc s.delay.toNat) ++ leBytes abw fb ++ [0x00])))

/-- 43_ack.md R178, R175: ACK_ENC of a non-empty valid list, byte by byte: `m` further ranges in `pairs` (what they are
is EntryCapKeepsHighestRanges and GapSplitting); with no further range the has-missing-ranges bit and the count are
absent. -/
def Obligations.AckEncodeOfRangeList : Prop :=
  ∀ (s : State) (r : AckRange) (rs : List AckRange) (m law abw : Nat) (pairs : List (Nat × Nat)) (bytes : List Byte),
    s.mode = .ready → s.ranges = r :: rs → ackValid s.largest.toNat (r :: rs) = true →
    s.rangeFirstAt (s.nranges.toNat - 1) ≠ 0 → s.largest ≠ 0 → ackEntries r.first 0 rs = (m, pairs) →
    law = pnWidth s.largest.toNat →
    abw = pnWidth ((pairs.map Prod.snd).foldl max (r.last - r.first + 1)) →
    bytes =
      [BitVec.ofNat 8 (0x40 + (if m = 0 then 0 else 32) + pnCode law * 8 + pnCode abw)] ++
        leBytes law s.largest.toNat ++ leBytes 2 (uf16Enc s.delay.toNat) ++
        (if m = 0 then [] else [BitVec.ofNat 8 pairs.length]) ++ leBytes abw (r.last - r.first + 1) ++
        (pairs.map fun q => BitVec.ofNat 8 q.1 :: leBytes abw q.2).flatten ++ [0x00] →
    (s.cfg.bufSize < s.cur.toNat + bytes.length → exec .ackEnc s = .next (afterFault 0x0043 3 s)) ∧
    (s.cur.toNat + bytes.length ≤ s.cfg.bufSize →
      StoresAtCursor .ackEnc 0x0043 s { s with aemit := BitVec.ofNat 16 (m + 1) } bytes)

/-- 43_ack.md R179: the wire entries of one gap and run: continuation entries of 255, then the rest with the run; their
gaps add up; a gap of 255 takes one entry and one of 256 two. -/
def Obligations.GapSplitting : Prop :=
  ∀ gap run : Nat, 1 ≤ gap →
    ((gapEntries gap run).map Prod.fst).sum = gap ∧
    (gapEntries gap run).length = (gap + 254) / 255 ∧
    (∃ g, 1 ≤ g ∧ g ≤ 255 ∧
      gapEntries gap run = List.replicate ((gap + 254) / 255 - 1) (255, 0) ++ [(g, run)]) ∧
    gapEntries 255 run = [(255, run)] ∧ gapEntries 256 run = [(255, 0), (1, run)]

/-- 43_ack.md R179: of a list with a gap between any two ranges, the `m` ranges emitted after the first are the
highest, each with all of its wire entries, at most 255 entries together; lower ranges are dropped only because the next one does not fit. -/
def Obligations.EntryCapKeepsHighestRanges : Prop :=
  ∀ (r : AckRange) (rs : List AckRange) (m : Nat) (pairs : List (Nat × Nat)), rangesDescend (r :: rs) = true →
    ackEntries r.first 0 rs = (m, pairs) →
    m ≤ rs.length ∧ pairs.length ≤ 255 ∧
    pairs = ((((r :: rs).zip rs).take m).map fun x =>
      gapEntries (x.1.first - x.2.last - 1) (x.2.last - x.2.first + 1)).flatten ∧
    (∀ above next, (r :: rs)[m]? = some above → rs[m]? = some next →
      255 < pairs.length + (gapEntries (above.first - next.last - 1) (next.last - next.first + 1)).length)

/-- 43_ack.md R181: what ACK_ENC wrote, ACK_DEC reads back, in any state that holds those bytes at its cursor. -/
def Obligations.AckRoundTrip : Prop :=
  ∀ s t u : State, s.Legal → s.mode = .ready → exec .ackEnc s = .next t → t.mode = .ready →
    u.mode = .ready → u.cur = s.cur → t.cur.toNat ≤ u.len.toNat →
    (∀ a, s.cur.toNat ≤ a → a < t.cur.toNat → u.byte a = t.byte a) →
    ∃ r, exec .ackDec u = .next r ∧ r.mode = .ready ∧ r.cur = t.cur ∧ r.largest = s.largest ∧
      r.delay = BitVec.ofNat 64 (uf16Dec (uf16Enc s.delay.toNat)) ∧
      (s.nranges = 0 → r.lowest = s.lowest ∧ r.nranges = 0) ∧
      (t.aemit = 1 → r.lowest = s.rangeFirstAt 0 ∧ r.nranges = 0) ∧
      (2 ≤ t.aemit.toNat → r.nranges = t.aemit ∧ r.ranges = s.ranges.take t.aemit.toNat ∧
        r.lowest = s.rangeFirstAt (t.aemit.toNat - 1))

/-! ## Packets -/

/-- 44_packet.md R202, R206: a Regular header: optional version tag, optional nonce, packet number; every register the
variant lacks becomes 0. Run by itself and by PKT_PARSE that meets it. -/
def Obligations.RegularHeaderParse : Prop :=
  ∀ (s t : State) (v n : Bool) (pp : BitVec 2) (f : Byte) (w ver nonce pnAt : Nat), s.mode = .ready →
    f = flagsPattern pp n false v → w = pnOfCode pp.toNat → ver = s.cur.toNat + 9 →
    nonce = ver + (if v then 4 else 0) → pnAt = nonce + (if n then 32 else 0) →
    pnAt + w ≤ s.len.toNat → (v = true → s.supported (s.memRead ver 4) = true) → s.memRead pnAt w ≠ 0 →
    t = { s with
          pflags := f, pkind := 0, cid := BitVec.ofNat 64 (s.memRead (s.cur.toNat + 1) 8)
          pinfo := BitVec.ofNat 3 ((if v then 1 else 0) + (if n then 2 else 0))
          ver := if v then BitVec.ofNat 32 (s.memRead ver 4) else 0
          pnum := BitVec.ofNat 48 (s.memRead pnAt w), pnlen := BitVec.ofNat 4 w
          nonce0 := if n then BitVec.ofNat 64 (s.memRead nonce 8) else 0
          nonce1 := if n then BitVec.ofNat 64 (s.memRead (nonce + 8) 8) else 0
          nonce2 := if n then BitVec.ofNat 64 (s.memRead (nonce + 16) 8) else 0
          nonce3 := if n then BitVec.ofNat 64 (s.memRead (nonce + 24) 8) else 0
          afam := 0, aport := 0, addr0 := 0, addr1 := 0, nver := 0, negoff := 0
          cur := BitVec.ofNat 16 (pnAt + w) } →
    exec (.pfRegular v n pp) s = .next t ∧
    (s.byte s.cur.toNat = f → exec (.pktParse .client) s = .next { t with cmd := 0x0050 }) ∧
    (s.byte s.cur.toNat = f → v = false → exec (.pktParse .server) s = .next { t with cmd := 0x0150 })

/-- 44_packet.md R203, R206: a Negotiation packet: the tags run to LEN, are counted and located, not copied; a cut-off
tag is E_SHORT_BUFFER. -/
def Obligations.NegotiationParse : Prop :=
  ∀ (s t : State) (n : Bool) (pp : BitVec 2) (f : Byte) (q : Nat), s.mode = .ready →
    f = flagsPattern pp n false true → q = s.cur.toNat + 9 → q ≤ s.len.toNat →
    t = { s with
          pflags := f, pkind := 2, cid := BitVec.ofNat 64 (s.memRead (s.cur.toNat + 1) 8), pinfo := 0, ver := 0
          pnum := 0, pnlen := 0, nonce0 := 0, nonce1 := 0, nonce2 := 0, nonce3 := 0, afam := 0, aport := 0, addr0 := 0
          addr1 := 0, nver := BitVec.ofNat 16 ((s.len.toNat - q) / 4), negoff := BitVec.ofNat 16 q, cur := s.len } →
    ((s.len.toNat - q) % 4 = 0 → exec (.pfNegotiation n pp) s = .next t ∧
      (s.byte s.cur.toNat = f → exec (.pktParse .server) s = .next { t with cmd := 0x0150 })) ∧
    ((s.len.toNat - q) % 4 ≠ 0 → exec (.pfNegotiation n pp) s = .next (afterFault s.cmd 2 s) ∧
      (s.byte s.cur.toNat = f → exec (.pktParse .server) s = .next (afterFault 0x0150 2 s)))

/-- 44_packet.md R204, R205, R206: a Reset packet without a socket address (two index entries), with an IPv4 address and
with an IPv6 address (three); every register the variant lacks becomes 0. -/
def Obligations.ResetParse : Prop :=
  ∀ (s t : State) (v n : Bool) (pp : BitVec 2) (f : Byte) (q a e fam : Nat), s.mode = .ready →
    f = flagsPattern pp n true v → q = s.cur.toNat + 9 →
    BytesAt s q [0x50, 0x52, 0x53, 0x54] →
    (s.memRead (q + 4) 2 = 2 ∧ a = q + 24 ∧ e = 40 ∧ fam = 0 ∨
      s.memRead (q + 4) 2 = 3 ∧ a = q + 32 ∧ e = 48 ∧ fam = 0x0002 ∨
      s.memRead (q + 4) 2 = 3 ∧ a = q + 32 ∧ e = 60 ∧ fam = 0x000A) →
    BytesAt s (q + 8) [0x52, 0x4E, 0x4F, 0x4E, 0x20, 0x00, 0x00, 0x00, 0x52, 0x53, 0x45, 0x51, 0x28, 0x00, 0x00, 0x00] →
    (e ≠ 40 → BytesAt s (q + 24) [0x43, 0x41, 0x44, 0x52, BitVec.ofNat 8 e, 0x00, 0x00, 0x00] ∧
      s.memRead (a + 40) 2 = fam) →
    a + e ≤ s.len.toNat → 1 ≤ s.memRead (a + 32) 8 → s.memRead (a + 32) 8 ≤ 0xFFFFFFFFFFFF →
    t = { s with
          pflags := f, pkind := 1, cid := BitVec.ofNat 64 (s.memRead (s.cur.toNat + 1) 8)
          pinfo := if e = 40 then 0 else 4, ver := 0
          pnum := BitVec.ofNat 48 (s.memRead (a + 32) 8), pnlen := 8
          nonce0 := BitVec.ofNat 64 (s.memRead a 8), nonce1 := BitVec.ofNat 64 (s.memRead (a + 8) 8)
          nonce2 := BitVec.ofNat 64 (s.memRead (a + 16) 8), nonce3 := BitVec.ofNat 64 (s.memRead (a + 24) 8)
          afam := BitVec.ofNat 16 fam
          aport := if e = 40 then 0 else BitVec.ofNat 16 (s.memRead (a + e - 2) 2)
          addr0 := if e = 40 then 0 else if e = 48 then BitVec.ofNat 64 (s.memRead (a + 42) 4)
            else BitVec.ofNat 64 (s.memRead (a + 42) 8)
          addr1 := if e = 60 then BitVec.ofNat 64 (s.memRead (a + 50) 8) else 0
          nver := 0, negoff := 0, cur := BitVec.ofNat 16 (a + e) } →
    exec (.pfReset v n pp) s = .next t ∧
    (s.byte s.cur.toNat = f → exec (.pktParse .client) s = .next { t with cmd := 0x0050 } ∧
      exec (.pktParse .server) s = .next { t with cmd := 0x0150 })

/-- 44_packet.md R206, R201 to R205, 30_encoding.md R89, 60_exceptions.md R236: the faults of PKT_PARSE, in their order:
those that all variants share; of a Regular header a cut-off field, an unsupported version tag and packet number 0; of a
Negotiation packet a cut-off connection id (a cut-off tag is in NegotiationParse); of a Reset packet a cut-off part, a
wrong map tag, entry count, key or end offset, RSEQ out of range, and a family that does not fit the CADR length. -/
def Obligations.PacketParseFaults : Prop :=
  decode (.cw 0x0050) = .ok (.pktParse .client) ∧ decode (.cw 0x0150) = .ok (.pktParse .server) ∧
  (∀ (s : State) (sb : Role) (w : CommandWord), s.mode = .ready →
    (sb = .client ∧ w = 0x0050 ∨ sb = .server ∧ w = 0x0150) →
    (s.len.toNat ≤ s.cur.toNat → exec (.pktParse sb) s = .next (afterFault w 2 s)) ∧
    (s.cur.toNat < s.len.toNat →
      (s.byte s.cur.toNat &&& 0xC8 ≠ 0x08 → exec (.pktParse sb) s = .next (afterFault w 8 s)) ∧
      (s.byte s.cur.toNat &&& 0xC8 = 0x08 → s.len.toNat < s.cur.toNat + 9 →
        exec (.pktParse sb) s = .next (afterFault w 2 s)) ∧
      (s.byte s.cur.toNat &&& 0xCB = 0x09 → sb = .client → s.cur.toNat + 13 ≤ s.len.toNat →
        s.supported (s.memRead (s.cur.toNat + 9) 4) = false → exec (.pktParse sb) s = .next (afterFault w 9 s)))) ∧
  (∀ (s : State) (v n : Bool) (pp : BitVec 2) (F : Nat → Prop) (w ver nonce pnAt : Nat), s.mode = .ready →
    F = ParseFaults s (.pfRegular v n pp) (flagsPattern pp n false v) → w = pnOfCode pp.toNat → ver = s.cur.toNat + 9 →
    nonce = ver + (if v then 4 else 0) → pnAt = nonce + (if n then 32 else 0) →
    (s.len.toNat < nonce → F 2) ∧
    (nonce ≤ s.len.toNat → v = true → s.supported (s.memRead ver 4) = false → F 9) ∧
    (nonce ≤ s.len.toNat → (v = true → s.supported (s.memRead ver 4) = true) →
      (s.len.toNat < pnAt + w → F 2) ∧ (pnAt + w ≤ s.len.toNat → s.memRead pnAt w = 0 → F 5))) ∧
  (∀ (s : State) (n : Bool) (pp : BitVec 2), s.mode = .ready → s.len.toNat < s.cur.toNat + 9 →
    ParseFaults s (.pfNegotiation n pp) (flagsPattern pp n false true) 2) ∧
  ∀ (s : State) (v n : Bool) (pp : BitVec 2) (F : Nat → Prop) (q num a : Nat), s.mode = .ready →
    F = ParseFaults s (.pfReset v n pp) (flagsPattern pp n true v) → q = s.cur.toNat + 9 → num = s.memRead (q + 4) 2 →
    a = q + 8 + 8 * num →
    (s.len.toNat < q + 8 → F 2) ∧
    (q + 8 ≤ s.len.toNat → ¬BytesAt s q [0x50, 0x52, 0x53, 0x54] ∨ num ≠ 2 ∧ num ≠ 3 → F 10) ∧
    (q + 8 ≤ s.len.toNat → BytesAt s q [0x50, 0x52, 0x53, 0x54] → num = 2 ∨ num = 3 →
      (s.len.toNat < a → F 2) ∧
      (a ≤ s.len.toNat →
        (¬BytesAt s (q + 8)
            [0x52, 0x4E, 0x4F, 0x4E, 0x20, 0x00, 0x00, 0x00, 0x52, 0x53, 0x45, 0x51, 0x28, 0x00, 0x00, 0x00] → F 10) ∧
        (num = 3 → ¬BytesAt s (q + 24) [0x43, 0x41, 0x44, 0x52, 0x30, 0x00, 0x00, 0x00] →
          ¬BytesAt s (q + 24) [0x43, 0x41, 0x44, 0x52, 0x3C, 0x00, 0x00, 0x00] → F 10) ∧
        (∀ e : Nat,
          BytesAt s (q + 8)
            [0x52, 0x4E, 0x4F, 0x4E, 0x20, 0x00, 0x00, 0x00, 0x52, 0x53, 0x45, 0x51, 0x28, 0x00, 0x00, 0x00] →
          (num = 2 ∧ e = 40 ∨ num = 3 ∧ (e = 48 ∨ e = 60) ∧
            BytesAt s (q + 24) [0x43, 0x41, 0x44, 0x52, BitVec.ofNat 8 e, 0x00, 0x00, 0x00]) →
          (s.len.toNat < a + e → F 2) ∧
          (a + e ≤ s.len.toNat → s.memRead (a + 32) 8 < 1 ∨ 0xFFFFFFFFFFFF < s.memRead (a + 32) 8 → F 5) ∧
          (a + e ≤ s.len.toNat → 1 ≤ s.memRead (a + 32) 8 → s.memRead (a + 32) 8 ≤ 0xFFFFFFFFFFFF →
            e = 48 ∧ s.memRead (a + 40) 2 ≠ 0x0002 ∨ e = 60 ∧ s.memRead (a + 40) 2 ≠ 0x000A → F 10))))

/-- 44_packet.md R210: PKT_SER_REG. -/
def Obligations.SerializeRegular : Prop :=
  decode (.cw 0x0051) = .ok (.pktSerReg .client) ∧ decode (.cw 0x0151) = .ok (.pktSerReg .server) ∧
  ∀ (s : State) (sb : Role) (word : CommandWord) (hv hn : Bool) (w size : Nat) (f : Byte), s.mode = .ready →
    (sb = .client ∧ word = 0x0051 ∨ sb = .server ∧ word = 0x0151) → hv = s.pinfo.getLsbD 0 → hn = s.pinfo.getLsbD 1 →
    w = pnWidth s.pnum.toNat → size = 9 + (if hv then 4 else 0) + (if hn then 32 else 0) + w →
    f = BitVec.ofNat 8 (pnCode w * 16 + 8 + (if hn then 4 else 0) + (if hv then 1 else 0)) →
    (hv = true ∧ sb = .server → exec (.pktSerReg sb) s = .next (afterFault word 11 s)) ∧
    (¬(hv = true ∧ sb = .server) →
      (s.pnum = 0 → exec (.pktSerReg sb) s = .next (afterFault word 5 s)) ∧
      (s.pnum ≠ 0 →
        (s.cfg.bufSize < s.cur.toNat + size → exec (.pktSerReg sb) s = .next (afterFault word 3 s)) ∧
        (s.cur.toNat + size ≤ s.cfg.bufSize →
          StoresAtCursor (.pktSerReg sb) word s { s with pflags := f, pkind := 0, pnlen := BitVec.ofNat 4 w }
            ([f] ++ leBytes 8 s.cid.toNat ++ (if hv then leBytes 4 s.ver.toNat else []) ++
              (if hn then leBytes 8 s.nonce0.toNat ++ leBytes 8 s.nonce1.toNat ++ leBytes 8 s.nonce2.toNat ++
                leBytes 8 s.nonce3.toNat else []) ++
              leBytes w s.pnum.toNat))))

/-- 44_packet.md R207, R204, R205: PKT_SER_RST, 73 bytes without an address, 89 with an IPv4 and 101 with an IPv6
address. -/
def Obligations.SerializeReset : Prop :=
  decode (.cw 0x0052) = .ok .pktSerRst ∧
  ∀ (s : State) (ha : Bool) (size e : Nat) (addr : List Byte), s.mode = .ready → ha = s.pinfo.getLsbD 2 →
    (s.pnum = 0 → exec .pktSerRst s = .next (afterFault 0x0052 5 s)) ∧
    (s.pnum ≠ 0 → ha = true → s.afam ≠ 0x0002 → s.afam ≠ 0x000A →
      exec .pktSerRst s = .next (afterFault 0x0052 11 s)) ∧
    (s.pnum ≠ 0 →
      (ha = false ∧ size = 73 ∧ e = 40 ∧ addr = [] ∨
        ha = true ∧ s.afam = 0x0002 ∧ size = 89 ∧ e = 48 ∧ addr = leBytes 4 (s.addr0.toNat % 2 ^ 32) ∨
        ha = true ∧ s.afam = 0x000A ∧ size = 101 ∧ e = 60 ∧ addr = leBytes 8 s.addr0.toNat ++ leBytes 8 s.addr1.toNat) →
      (s.cfg.bufSize < s.cur.toNat + size → exec .pktSerRst s = .next (afterFault 0x0052 3 s)) ∧
      (s.cur.toNat + size ≤ s.cfg.bufSize →
        StoresAtCursor .pktSerRst 0x0052 s { s with pflags := 0x0A, pkind := 1, pnlen := 8 }
          ([0x0A] ++ leBytes 8 s.cid.toNat ++ [0x50, 0x52, 0x53, 0x54, if ha then 3 else 2, 0, 0, 0] ++
            [0x52, 0x4E, 0x4F, 0x4E, 32, 0, 0, 0] ++ [0x52, 0x53, 0x45, 0x51, 40, 0, 0, 0] ++
            (if ha then [0x43, 0x41, 0x44, 0x52, BitVec.ofNat 8 e, 0, 0, 0] else []) ++
            (leBytes 8 s.nonce0.toNat ++ leBytes 8 s.nonce1.toNat ++ leBytes 8 s.nonce2.toNat ++
              leBytes 8 s.nonce3.toNat) ++
            leBytes 8 s.pnum.toNat ++
            (if ha then leBytes 2 s.afam.toNat ++ addr ++ leBytes 2 s.aport.toNat else []))))

/-- 44_packet.md R208: PKT_SER_NEG lists the enabled slots in ascending order. -/
def Obligations.SerializeNegotiation : Prop :=
  decode (.cw 0x0053) = .ok .pktSerNeg ∧
  ∀ (s : State) (tags : List Nat), s.mode = .ready →
    tags = ((List.range s.cfg.nSupv).filter fun j => s.supven.getLsbD j).map (fun j => (s.supv.getD j 0).toNat) →
    (s.cfg.bufSize < s.cur.toNat + (9 + 4 * tags.length) → exec .pktSerNeg s = .next (afterFault 0x0053 3 s)) ∧
    (s.cur.toNat + (9 + 4 * tags.length) ≤ s.cfg.bufSize →
      StoresAtCursor .pktSerNeg 0x0053 s
        { s with
          pflags := 0x09, pkind := 2, pnlen := 0, nver := BitVec.ofNat 16 tags.length
          negoff := BitVec.ofNat 16 (s.cur.toNat + 9) }
        ([0x09] ++ leBytes 8 s.cid.toNat ++ (tags.map (leBytes 4)).flatten))

/-- 44_packet.md R209, R211: VER_CHOOSE answers the first offered tag that is in the set, whatever the slot order. -/
def Obligations.VersionChoice : Prop :=
  decode (.cw 0x0054) = .ok .verChoose ∧
  ∀ (s : State) (tag : Nat → Nat), s.mode = .ready → (∀ i, tag i = s.memRead (s.negoff.toNat + 4 * i) 4) →
    (s.len.toNat < s.negoff.toNat + 4 * s.nver.toNat → exec .verChoose s = .next (afterFault 0x0054 2 s)) ∧
    (s.negoff.toNat + 4 * s.nver.toNat ≤ s.len.toNat →
      (∀ i, i < s.nver.toNat → s.supported (tag i) = true → (∀ j, j < i → s.supported (tag j) = false) →
        exec .verChoose s = .next { s with cmd := 0x0054, versel := BitVec.ofNat 32 (tag i), cond := 1 }) ∧
      ((∀ i, i < s.nver.toNat → s.supported (tag i) = false) →
        exec .verChoose s = .next { s with cmd := 0x0054, versel := 0, cond := 0 })) ∧
    (∀ v, s.supported v = true ↔
      ∃ j, j < s.cfg.nSupv ∧ s.supven.getLsbD j = true ∧ (s.supv.getD j 0).toNat = v)

/-- 44_packet.md R212 (a): what PKT_SER_REG wrote, PKT_PARSE with the same role reads back. -/
def Obligations.RegularRoundTrip : Prop :=
  ∀ (sb : Role) (s t u : State), s.Legal → s.mode = .ready → exec (.pktSerReg sb) s = .next t → t.mode = .ready →
    u.mode = .ready → u.cur = s.cur → t.cur.toNat ≤ u.len.toNat →
    (∀ a, s.cur.toNat ≤ a → a < t.cur.toNat → u.byte a = t.byte a) →
    (s.pinfo.getLsbD 0 = true → u.supported s.ver.toNat = true) →
    ∃ r, exec (.pktParse sb) u = .next r ∧ r.mode = .ready ∧ r.cur = t.cur ∧ r.pkind = 0 ∧ r.cid = s.cid ∧
      r.pinfo = s.pinfo &&& 3 ∧ r.pnum = s.pnum ∧ r.pnlen = t.pnlen ∧ r.pflags = t.pflags ∧
      r.ver = (if s.pinfo.getLsbD 0 then s.ver else 0) ∧
      (if s.pinfo.getLsbD 1 then
        r.nonce0 = s.nonce0 ∧ r.nonce1 = s.nonce1 ∧ r.nonce2 = s.nonce2 ∧ r.nonce3 = s.nonce3
      else r.nonce0 = 0 ∧ r.nonce1 = 0 ∧ r.nonce2 = 0 ∧ r.nonce3 = 0)

/-- 44_packet.md R212 (b): what PKT_SER_RST wrote, PKT_PARSE with either role reads back; unused address bytes read
back as 0. -/
def Obligations.ResetRoundTrip : Prop :=
  ∀ (sb : Role) (s t u : State), s.Legal → s.mode = .ready → exec .pktSerRst s = .next t → t.mode = .ready →
    u.mode = .ready → u.cur = s.cur → t.cur.toNat ≤ u.len.toNat →
    (∀ a, s.cur.toNat ≤ a → a < t.cur.toNat → u.byte a = t.byte a) →
    ∃ r, exec (.pktParse sb) u = .next r ∧ r.mode = .ready ∧ r.cur = t.cur ∧ r.pkind = 1 ∧ r.cid = s.cid ∧
      r.pinfo = s.pinfo &&& 4 ∧ r.pnum = s.pnum ∧ r.nonce0 = s.nonce0 ∧ r.nonce1 = s.nonce1 ∧
      r.nonce2 = s.nonce2 ∧ r.nonce3 = s.nonce3 ∧
      (s.pinfo.getLsbD 2 = true → r.afam = s.afam ∧ r.aport = s.aport ∧
        (s.afam = 0x0002 → r.addr0 = s.addr0 &&& 0xFFFFFFFF ∧ r.addr1 = 0) ∧
        (s.afam = 0x000A → r.addr0 = s.addr0 ∧ r.addr1 = s.addr1))

/-- 44_packet.md R212 (c): what PKT_SER_NEG wrote, PKT_PARSE with the server role reads back when LEN is the new
cursor, and the tags at NEGOFF are the enabled slots. -/
def Obligations.NegotiationRoundTrip : Prop :=
  ∀ (s t u : State), s.Legal → s.mode = .ready → exec .pktSerNeg s = .next t → t.mode = .ready →
    u.mode = .ready → u.cur = s.cur → u.len = t.cur →
    (∀ a, s.cur.toNat ≤ a → a < t.cur.toNat → u.byte a = t.byte a) →
    ∃ r, exec (.pktParse .server) u = .next r ∧ r.mode = .ready ∧ r.cur = t.cur ∧ r.pkind = 2 ∧ r.cid = s.cid ∧
      r.nver = t.nver ∧ r.negoff = t.negoff ∧ r.offered = s.supportedTags
end

