-- ==== Sys2Proof/Laws/State.lean ====
section
/-! SUPPORT. One lemma per field of State per named update, all by rfl, so that no proof unfolds a record update. -/

namespace Sys2Proof.Machine

/-! ## takeFault -/

@[simp] theorem takeFault_mode (e : FaultCode) (s : State) : (takeFault e s).mode = .faulted := rfl
@[simp] theorem takeFault_err (e : FaultCode) (s : State) : (takeFault e s).err = faultNumber e := rfl
@[simp] theorem takeFault_cmd (e : FaultCode) (s : State) : (takeFault e s).cmd = s.cmd := rfl
@[simp] theorem takeFault_buf (e : FaultCode) (s : State) : (takeFault e s).buf = s.buf := rfl
@[simp] theorem takeFault_cur (e : FaultCode) (s : State) : (takeFault e s).cur = s.cur := rfl
@[simp] theorem takeFault_len (e : FaultCode) (s : State) : (takeFault e s).len = s.len := rfl
@[simp] theorem takeFault_val (e : FaultCode) (s : State) : (takeFault e s).val = s.val := rfl
@[simp] theorem takeFault_wid (e : FaultCode) (s : State) : (takeFault e s).wid = s.wid := rfl
@[simp] theorem takeFault_code (e : FaultCode) (s : State) : (takeFault e s).code = s.code := rfl
@[simp] theorem takeFault_cond (e : FaultCode) (s : State) : (takeFault e s).cond = s.cond := rfl
@[simp] theorem takeFault_tb (e : FaultCode) (s : State) : (takeFault e s).tb = s.tb := rfl
@[simp] theorem takeFault_finfo (e : FaultCode) (s : State) : (takeFault e s).finfo = s.finfo := rfl
@[simp] theorem takeFault_fwid (e : FaultCode) (s : State) : (takeFault e s).fwid = s.fwid := rfl
@[simp] theorem takeFault_largest (e : FaultCode) (s : State) : (takeFault e s).largest = s.largest := rfl
@[simp] theorem takeFault_lowest (e : FaultCode) (s : State) : (takeFault e s).lowest = s.lowest := rfl
@[simp] theorem takeFault_delay (e : FaultCode) (s : State) : (takeFault e s).delay = s.delay := rfl
@[simp] theorem takeFault_nranges (e : FaultCode) (s : State) : (takeFault e s).nranges = s.nranges := rfl
@[simp] theorem takeFault_ridx (e : FaultCode) (s : State) : (takeFault e s).ridx = s.ridx := rfl
@[simp] theorem takeFault_aemit (e : FaultCode) (s : State) : (takeFault e s).aemit = s.aemit := rfl
@[simp] theorem takeFault_rangeFirst (e : FaultCode) (s : State) : (takeFault e s).rangeFirst = s.rangeFirst := rfl
@[simp] theorem takeFault_rangeLast (e : FaultCode) (s : State) : (takeFault e s).rangeLast = s.rangeLast := rfl
@[simp] theorem takeFault_pflags (e : FaultCode) (s : State) : (takeFault e s).pflags = s.pflags := rfl
@[simp] theorem takeFault_pkind (e : FaultCode) (s : State) : (takeFault e s).pkind = s.pkind := rfl
@[simp] theorem takeFault_cid (e : FaultCode) (s : State) : (takeFault e s).cid = s.cid := rfl
@[simp] theorem takeFault_pinfo (e : FaultCode) (s : State) : (takeFault e s).pinfo = s.pinfo := rfl
@[simp] theorem takeFault_ver (e : FaultCode) (s : State) : (takeFault e s).ver = s.ver := rfl
@[simp] theorem takeFault_pnum (e : FaultCode) (s : State) : (takeFault e s).pnum = s.pnum := rfl
@[simp] theorem takeFault_pnlen (e : FaultCode) (s : State) : (takeFault e s).pnlen = s.pnlen := rfl
@[simp] theorem takeFault_nonce0 (e : FaultCode) (s : State) : (takeFault e s).nonce0 = s.nonce0 := rfl
@[simp] theorem takeFault_nonce1 (e : FaultCode) (s : State) : (takeFault e s).nonce1 = s.nonce1 := rfl
@[simp] theorem takeFault_nonce2 (e : FaultCode) (s : State) : (takeFault e s).nonce2 = s.nonce2 := rfl
@[simp] theorem takeFault_nonce3 (e : FaultCode) (s : State) : (takeFault e s).nonce3 = s.nonce3 := rfl
@[simp] theorem takeFault_afam (e : FaultCode) (s : State) : (takeFault e s).afam = s.afam := rfl
@[simp] theorem takeFault_aport (e : FaultCode) (s : State) : (takeFault e s).aport = s.aport := rfl
@[simp] theorem takeFault_addr0 (e : FaultCode) (s : State) : (takeFault e s).addr0 = s.addr0 := rfl
@[simp] theorem takeFault_addr1 (e : FaultCode) (s : State) : (takeFault e s).addr1 = s.addr1 := rfl
@[simp] theorem takeFault_nver (e : FaultCode) (s : State) : (takeFault e s).nver = s.nver := rfl
@[simp] theorem takeFault_negoff (e : FaultCode) (s : State) : (takeFault e s).negoff = s.negoff := rfl
@[simp] theorem takeFault_versel (e : FaultCode) (s : State) : (takeFault e s).versel = s.versel := rfl
@[simp] theorem takeFault_supven (e : FaultCode) (s : State) : (takeFault e s).supven = s.supven := rfl
@[simp] theorem takeFault_supv (e : FaultCode) (s : State) : (takeFault e s).supv = s.supv := rfl
@[simp] theorem takeFault_cfg (e : FaultCode) (s : State) : (takeFault e s).cfg = s.cfg := rfl
@[simp] theorem takeFault_epoch (e : FaultCode) (s : State) : (takeFault e s).epoch = s.epoch := rfl
@[simp] theorem takeFault_pending (e : FaultCode) (s : State) : (takeFault e s).pending = s.pending := rfl
@[simp] theorem takeFault_answer (e : FaultCode) (s : State) : (takeFault e s).answer = s.answer := rfl

/-! ## returnFromFault -/

@[simp] theorem returnFromFault_mode (s : State) : (returnFromFault s).mode = .ready := rfl
@[simp] theorem returnFromFault_err (s : State) : (returnFromFault s).err = 0 := rfl
@[simp] theorem returnFromFault_cmd (s : State) : (returnFromFault s).cmd = s.cmd := rfl
@[simp] theorem returnFromFault_buf (s : State) : (returnFromFault s).buf = s.buf := rfl
@[simp] theorem returnFromFault_cur (s : State) : (returnFromFault s).cur = s.cur := rfl
@[simp] theorem returnFromFault_len (s : State) : (returnFromFault s).len = s.len := rfl
@[simp] theorem returnFromFault_val (s : State) : (returnFromFault s).val = s.val := rfl
@[simp] theorem returnFromFault_wid (s : State) : (returnFromFault s).wid = s.wid := rfl
@[simp] theorem returnFromFault_code (s : State) : (returnFromFault s).code = s.code := rfl
@[simp] theorem returnFromFault_cond (s : State) : (returnFromFault s).cond = s.cond := rfl
@[simp] theorem returnFromFault_tb (s : State) : (returnFromFault s).tb = s.tb := rfl
@[simp] theorem returnFromFault_finfo (s : State) : (returnFromFault s).finfo = s.finfo := rfl
@[simp] theorem returnFromFault_fwid (s : State) : (returnFromFault s).fwid = s.fwid := rfl
@[simp] theorem returnFromFault_largest (s : State) : (returnFromFault s).largest = s.largest := rfl
@[simp] theorem returnFromFault_lowest (s : State) : (returnFromFault s).lowest = s.lowest := rfl
@[simp] theorem returnFromFault_delay (s : State) : (returnFromFault s).delay = s.delay := rfl
@[simp] theorem returnFromFault_nranges (s : State) : (returnFromFault s).nranges = s.nranges := rfl
@[simp] theorem returnFromFault_ridx (s : State) : (returnFromFault s).ridx = s.ridx := rfl
@[simp] theorem returnFromFault_aemit (s : State) : (returnFromFault s).aemit = s.aemit := rfl
@[simp] theorem returnFromFault_rangeFirst (s : State) : (returnFromFault s).rangeFirst = s.rangeFirst := rfl
@[simp] theorem returnFromFault_rangeLast (s : State) : (returnFromFault s).rangeLast = s.rangeLast := rfl
@[simp] theorem returnFromFault_pflags (s : State) : (returnFromFault s).pflags = s.pflags := rfl
@[simp] theorem returnFromFault_pkind (s : State) : (returnFromFault s).pkind = s.pkind := rfl
@[simp] theorem returnFromFault_cid (s : State) : (returnFromFault s).cid = s.cid := rfl
@[simp] theorem returnFromFault_pinfo (s : State) : (returnFromFault s).pinfo = s.pinfo := rfl
@[simp] theorem returnFromFault_ver (s : State) : (returnFromFault s).ver = s.ver := rfl
@[simp] theorem returnFromFault_pnum (s : State) : (returnFromFault s).pnum = s.pnum := rfl
@[simp] theorem returnFromFault_pnlen (s : State) : (returnFromFault s).pnlen = s.pnlen := rfl
@[simp] theorem returnFromFault_nonce0 (s : State) : (returnFromFault s).nonce0 = s.nonce0 := rfl
@[simp] theorem returnFromFault_nonce1 (s : State) : (returnFromFault s).nonce1 = s.nonce1 := rfl
@[simp] theorem returnFromFault_nonce2 (s : State) : (returnFromFault s).nonce2 = s.nonce2 := rfl
@[simp] theorem returnFromFault_nonce3 (s : State) : (returnFromFault s).nonce3 = s.nonce3 := rfl
@[simp] theorem returnFromFault_afam (s : State) : (returnFromFault s).afam = s.afam := rfl
@[simp] theorem returnFromFault_aport (s : State) : (returnFromFault s).aport = s.aport := rfl
@[simp] theorem returnFromFault_addr0 (s : State) : (returnFromFault s).addr0 = s.addr0 := rfl
@[simp] theorem returnFromFault_addr1 (s : State) : (returnFromFault s).addr1 = s.addr1 := rfl
@[simp] theorem returnFromFault_nver (s : State) : (returnFromFault s).nver = s.nver := rfl
@[simp] theorem returnFromFault_negoff (s : State) : (returnFromFault s).negoff = s.negoff := rfl
@[simp] theorem returnFromFault_versel (s : State) : (returnFromFault s).versel = s.versel := rfl
@[simp] theorem returnFromFault_supven (s : State) : (returnFromFault s).supven = s.supven := rfl
@[simp] theorem returnFromFault_supv (s : State) : (returnFromFault s).supv = s.supv := rfl
@[simp] theorem returnFromFault_cfg (s : State) : (returnFromFault s).cfg = s.cfg := rfl
@[simp] theorem returnFromFault_epoch (s : State) : (returnFromFault s).epoch = s.epoch := rfl
@[simp] theorem returnFromFault_pending (s : State) : (returnFromFault s).pending = s.pending := rfl
@[simp] theorem returnFromFault_answer (s : State) : (returnFromFault s).answer = s.answer := rfl

/-! ## withCmd -/

@[simp] theorem withCmd_mode (w : CommandWord) (s : State) : (withCmd w s).mode = s.mode := rfl
@[simp] theorem withCmd_err (w : CommandWord) (s : State) : (withCmd w s).err = s.err := rfl
@[simp] theorem withCmd_cmd (w : CommandWord) (s : State) : (withCmd w s).cmd = w := rfl
@[simp] theorem withCmd_buf (w : CommandWord) (s : State) : (withCmd w s).buf = s.buf := rfl
@[simp] theorem withCmd_cur (w : CommandWord) (s : State) : (withCmd w s).cur = s.cur := rfl
@[simp] theorem withCmd_len (w : CommandWord) (s : State) : (withCmd w s).len = s.len := rfl
@[simp] theorem withCmd_val (w : CommandWord) (s : State) : (withCmd w s).val = s.val := rfl
@[simp] theorem withCmd_wid (w : CommandWord) (s : State) : (withCmd w s).wid = s.wid := rfl
@[simp] theorem withCmd_code (w : CommandWord) (s : State) : (withCmd w s).code = s.code := rfl
@[simp] theorem withCmd_cond (w : CommandWord) (s : State) : (withCmd w s).cond = s.cond := rfl
@[simp] theorem withCmd_tb (w : CommandWord) (s : State) : (withCmd w s).tb = s.tb := rfl
@[simp] theorem withCmd_finfo (w : CommandWord) (s : State) : (withCmd w s).finfo = s.finfo := rfl
@[simp] theorem withCmd_fwid (w : CommandWord) (s : State) : (withCmd w s).fwid = s.fwid := rfl
@[simp] theorem withCmd_largest (w : CommandWord) (s : State) : (withCmd w s).largest = s.largest := rfl
@[simp] theorem withCmd_lowest (w : CommandWord) (s : State) : (withCmd w s).lowest = s.lowest := rfl
@[simp] theorem withCmd_delay (w : CommandWord) (s : State) : (withCmd w s).delay = s.delay := rfl
@[simp] theorem withCmd_nranges (w : CommandWord) (s : State) : (withCmd w s).nranges = s.nranges := rfl
@[simp] theorem withCmd_ridx (w : CommandWord) (s : State) : (withCmd w s).ridx = s.ridx := rfl
@[simp] theorem withCmd_aemit (w : CommandWord) (s : State) : (withCmd w s).aemit = s.aemit := rfl
@[simp] theorem withCmd_rangeFirst (w : CommandWord) (s : State) : (withCmd w s).rangeFirst = s.rangeFirst := rfl
@[simp] theorem withCmd_rangeLast (w : CommandWord) (s : State) : (withCmd w s).rangeLast = s.rangeLast := rfl
@[simp] theorem withCmd_pflags (w : CommandWord) (s : State) : (withCmd w s).pflags = s.pflags := rfl
@[simp] theorem withCmd_pkind (w : CommandWord) (s : State) : (withCmd w s).pkind = s.pkind := rfl
@[simp] theorem withCmd_cid (w : CommandWord) (s : State) : (withCmd w s).cid = s.cid := rfl
@[simp] theorem withCmd_pinfo (w : CommandWord) (s : State) : (withCmd w s).pinfo = s.pinfo := rfl
@[simp] theorem withCmd_ver (w : CommandWord) (s : State) : (withCmd w s).ver = s.ver := rfl
@[simp] theorem withCmd_pnum (w : CommandWord) (s : State) : (withCmd w s).pnum = s.pnum := rfl
@[simp] theorem withCmd_pnlen (w : CommandWord) (s : State) : (withCmd w s).pnlen = s.pnlen := rfl
@[simp] theorem withCmd_nonce0 (w : CommandWord) (s : State) : (withCmd w s).nonce0 = s.nonce0 := rfl
@[simp] theorem withCmd_nonce1 (w : CommandWord) (s : State) : (withCmd w s).nonce1 = s.nonce1 := rfl
@[simp] theorem withCmd_nonce2 (w : CommandWord) (s : State) : (withCmd w s).nonce2 = s.nonce2 := rfl
@[simp] theorem withCmd_nonce3 (w : CommandWord) (s : State) : (withCmd w s).nonce3 = s.nonce3 := rfl
@[simp] theorem withCmd_afam (w : CommandWord) (s : State) : (withCmd w s).afam = s.afam := rfl
@[simp] theorem withCmd_aport (w : CommandWord) (s : State) : (withCmd w s).aport = s.aport := rfl
@[simp] theorem withCmd_addr0 (w : CommandWord) (s : State) : (withCmd w s).addr0 = s.addr0 := rfl
@[simp] theorem withCmd_addr1 (w : CommandWord) (s : State) : (withCmd w s).addr1 = s.addr1 := rfl
@[simp] theorem withCmd_nver (w : CommandWord) (s : State) : (withCmd w s).nver = s.nver := rfl
@[simp] theorem withCmd_negoff (w : CommandWord) (s : State) : (withCmd w s).negoff = s.negoff := rfl
@[simp] theorem withCmd_versel (w : CommandWord) (s : State) : (withCmd w s).versel = s.versel := rfl
@[simp] theorem withCmd_supven (w : CommandWord) (s : State) : (withCmd w s).supven = s.supven := rfl
@[simp] theorem withCmd_supv (w : CommandWord) (s : State) : (withCmd w s).supv = s.supv := rfl
@[simp] theorem withCmd_cfg (w : CommandWord) (s : State) : (withCmd w s).cfg = s.cfg := rfl
@[simp] theorem withCmd_epoch (w : CommandWord) (s : State) : (withCmd w s).epoch = s.epoch := rfl
@[simp] theorem withCmd_pending (w : CommandWord) (s : State) : (withCmd w s).pending = s.pending := rfl
@[simp] theorem withCmd_answer (w : CommandWord) (s : State) : (withCmd w s).answer = s.answer := rfl

/-! ## withAnswer -/

@[simp] theorem withAnswer_mode (a : Answer) (s : State) : (withAnswer a s).mode = s.mode := rfl
@[simp] theorem withAnswer_err (a : Answer) (s : State) : (withAnswer a s).err = s.err := rfl
@[simp] theorem withAnswer_cmd (a : Answer) (s : State) : (withAnswer a s).cmd = s.cmd := rfl
@[simp] theorem withAnswer_buf (a : Answer) (s : State) : (withAnswer a s).buf = s.buf := rfl
@[simp] theorem withAnswer_cur (a : Answer) (s : State) : (withAnswer a s).cur = s.cur := rfl
@[simp] theorem withAnswer_len (a : Answer) (s : State) : (withAnswer a s).len = s.len := rfl
@[simp] theorem withAnswer_val (a : Answer) (s : State) : (withAnswer a s).val = s.val := rfl
@[simp] theorem withAnswer_wid (a : Answer) (s : State) : (withAnswer a s).wid = s.wid := rfl
@[simp] theorem withAnswer_code (a : Answer) (s : State) : (withAnswer a s).code = s.code := rfl
@[simp] theorem withAnswer_cond (a : Answer) (s : State) : (withAnswer a s).cond = s.cond := rfl
@[simp] theorem withAnswer_tb (a : Answer) (s : State) : (withAnswer a s).tb = s.tb := rfl
@[simp] theorem withAnswer_finfo (a : Answer) (s : State) : (withAnswer a s).finfo = s.finfo := rfl
@[simp] theorem withAnswer_fwid (a : Answer) (s : State) : (withAnswer a s).fwid = s.fwid := rfl
@[simp] theorem withAnswer_largest (a : Answer) (s : State) : (withAnswer a s).largest = s.largest := rfl
@[simp] theorem withAnswer_lowest (a : Answer) (s : State) : (withAnswer a s).lowest = s.lowest := rfl
@[simp] theorem withAnswer_delay (a : Answer) (s : State) : (withAnswer a s).delay = s.delay := rfl
@[simp] theorem withAnswer_nranges (a : Answer) (s : State) : (withAnswer a s).nranges = s.nranges := rfl
@[simp] theorem withAnswer_ridx (a : Answer) (s : State) : (withAnswer a s).ridx = s.ridx := rfl
@[simp] theorem withAnswer_aemit (a : Answer) (s : State) : (withAnswer a s).aemit = s.aemit := rfl
@[simp] theorem withAnswer_rangeFirst (a : Answer) (s : State) : (withAnswer a s).rangeFirst = s.rangeFirst := rfl
@[simp] theorem withAnswer_rangeLast (a : Answer) (s : State) : (withAnswer a s).rangeLast = s.rangeLast := rfl
@[simp] theorem withAnswer_pflags (a : Answer) (s : State) : (withAnswer a s).pflags = s.pflags := rfl
@[simp] theorem withAnswer_pkind (a : Answer) (s : State) : (withAnswer a s).pkind = s.pkind := rfl
@[simp] theorem withAnswer_cid (a : Answer) (s : State) : (withAnswer a s).cid = s.cid := rfl
@[simp] theorem withAnswer_pinfo (a : Answer) (s : State) : (withAnswer a s).pinfo = s.pinfo := rfl
@[simp] theorem withAnswer_ver (a : Answer) (s : State) : (withAnswer a s).ver = s.ver := rfl
@[simp] theorem withAnswer_pnum (a : Answer) (s : State) : (withAnswer a s).pnum = s.pnum := rfl
@[simp] theorem withAnswer_pnlen (a : Answer) (s : State) : (withAnswer a s).pnlen = s.pnlen := rfl
@[simp] theorem withAnswer_nonce0 (a : Answer) (s : State) : (withAnswer a s).nonce0 = s.nonce0 := rfl
@[simp] theorem withAnswer_nonce1 (a : Answer) (s : State) : (withAnswer a s).nonce1 = s.nonce1 := rfl
@[simp] theorem withAnswer_nonce2 (a : Answer) (s : State) : (withAnswer a s).nonce2 = s.nonce2 := rfl
@[simp] theorem withAnswer_nonce3 (a : Answer) (s : State) : (withAnswer a s).nonce3 = s.nonce3 := rfl
@[simp] theorem withAnswer_afam (a : Answer) (s : State) : (withAnswer a s).afam = s.afam := rfl
@[simp] theorem withAnswer_aport (a : Answer) (s : State) : (withAnswer a s).aport = s.aport := rfl
@[simp] theorem withAnswer_addr0 (a : Answer) (s : State) : (withAnswer a s).addr0 = s.addr0 := rfl
@[simp] theorem withAnswer_addr1 (a : Answer) (s : State) : (withAnswer a s).addr1 = s.addr1 := rfl
@[simp] theorem withAnswer_nver (a : Answer) (s : State) : (withAnswer a s).nver = s.nver := rfl
@[simp] theorem withAnswer_negoff (a : Answer) (s : State) : (withAnswer a s).negoff = s.negoff := rfl
@[simp] theorem withAnswer_versel (a : Answer) (s : State) : (withAnswer a s).versel = s.versel := rfl
@[simp] theorem withAnswer_supven (a : Answer) (s : State) : (withAnswer a s).supven = s.supven := rfl
@[simp] theorem withAnswer_supv (a : Answer) (s : State) : (withAnswer a s).supv = s.supv := rfl
@[simp] theorem withAnswer_cfg (a : Answer) (s : State) : (withAnswer a s).cfg = s.cfg := rfl
@[simp] theorem withAnswer_epoch (a : Answer) (s : State) : (withAnswer a s).epoch = s.epoch := rfl
@[simp] theorem withAnswer_pending (a : Answer) (s : State) : (withAnswer a s).pending = s.pending := rfl
@[simp] theorem withAnswer_answer (a : Answer) (s : State) : (withAnswer a s).answer = a := rfl

/-! ## moveTo -/

@[simp] theorem moveTo_mode (s : State) (p : Nat) : (s.moveTo p).mode = s.mode := rfl
@[simp] theorem moveTo_err (s : State) (p : Nat) : (s.moveTo p).err = s.err := rfl
@[simp] theorem moveTo_cmd (s : State) (p : Nat) : (s.moveTo p).cmd = s.cmd := rfl
@[simp] theorem moveTo_buf (s : State) (p : Nat) : (s.moveTo p).buf = s.buf := rfl
@[simp] theorem moveTo_cur (s : State) (p : Nat) : (s.moveTo p).cur = BitVec.ofNat 16 p := rfl
@[simp] theorem moveTo_len (s : State) (p : Nat) : (s.moveTo p).len = s.len := rfl
@[simp] theorem moveTo_val (s : State) (p : Nat) : (s.moveTo p).val = s.val := rfl
@[simp] theorem moveTo_wid (s : State) (p : Nat) : (s.moveTo p).wid = s.wid := rfl
@[simp] theorem moveTo_code (s : State) (p : Nat) : (s.moveTo p).code = s.code := rfl
@[simp] theorem moveTo_cond (s : State) (p : Nat) : (s.moveTo p).cond = s.cond := rfl
@[simp] theorem moveTo_tb (s : State) (p : Nat) : (s.moveTo p).tb = s.tb := rfl
@[simp] theorem moveTo_finfo (s : State) (p : Nat) : (s.moveTo p).finfo = s.finfo := rfl
@[simp] theorem moveTo_fwid (s : State) (p : Nat) : (s.moveTo p).fwid = s.fwid := rfl
@[simp] theorem moveTo_largest (s : State) (p : Nat) : (s.moveTo p).largest = s.largest := rfl
@[simp] theorem moveTo_lowest (s : State) (p : Nat) : (s.moveTo p).lowest = s.lowest := rfl
@[simp] theorem moveTo_delay (s : State) (p : Nat) : (s.moveTo p).delay = s.delay := rfl
@[simp] theorem moveTo_nranges (s : State) (p : Nat) : (s.moveTo p).nranges = s.nranges := rfl
@[simp] theorem moveTo_ridx (s : State) (p : Nat) : (s.moveTo p).ridx = s.ridx := rfl
@[simp] theorem moveTo_aemit (s : State) (p : Nat) : (s.moveTo p).aemit = s.aemit := rfl
@[simp] theorem moveTo_rangeFirst (s : State) (p : Nat) : (s.moveTo p).rangeFirst = s.rangeFirst := rfl
@[simp] theorem moveTo_rangeLast (s : State) (p : Nat) : (s.moveTo p).rangeLast = s.rangeLast := rfl
@[simp] theorem moveTo_pflags (s : State) (p : Nat) : (s.moveTo p).pflags = s.pflags := rfl
@[simp] theorem moveTo_pkind (s : State) (p : Nat) : (s.moveTo p).pkind = s.pkind := rfl
@[simp] theorem moveTo_cid (s : State) (p : Nat) : (s.moveTo p).cid = s.cid := rfl
@[simp] theorem moveTo_pinfo (s : State) (p : Nat) : (s.moveTo p).pinfo = s.pinfo := rfl
@[simp] theorem moveTo_ver (s : State) (p : Nat) : (s.moveTo p).ver = s.ver := rfl
@[simp] theorem moveTo_pnum (s : State) (p : Nat) : (s.moveTo p).pnum = s.pnum := rfl
@[simp] theorem moveTo_pnlen (s : State) (p : Nat) : (s.moveTo p).pnlen = s.pnlen := rfl
@[simp] theorem moveTo_nonce0 (s : State) (p : Nat) : (s.moveTo p).nonce0 = s.nonce0 := rfl
@[simp] theorem moveTo_nonce1 (s : State) (p : Nat) : (s.moveTo p).nonce1 = s.nonce1 := rfl
@[simp] theorem moveTo_nonce2 (s : State) (p : Nat) : (s.moveTo p).nonce2 = s.nonce2 := rfl
@[simp] theorem moveTo_nonce3 (s : State) (p : Nat) : (s.moveTo p).nonce3 = s.nonce3 := rfl
@[simp] theorem moveTo_afam (s : State) (p : Nat) : (s.moveTo p).afam = s.afam := rfl
@[simp] theorem moveTo_aport (s : State) (p : Nat) : (s.moveTo p).aport = s.aport := rfl
@[simp] theorem moveTo_addr0 (s : State) (p : Nat) : (s.moveTo p).addr0 = s.addr0 := rfl
@[simp] theorem moveTo_addr1 (s : State) (p : Nat) : (s.moveTo p).addr1 = s.addr1 := rfl
@[simp] theorem moveTo_nver (s : State) (p : Nat) : (s.moveTo p).nver = s.nver := rfl
@[simp] theorem moveTo_negoff (s : State) (p : Nat) : (s.moveTo p).negoff = s.negoff := rfl
@[simp] theorem moveTo_versel (s : State) (p : Nat) : (s.moveTo p).versel = s.versel := rfl
@[simp] theorem moveTo_supven (s : State) (p : Nat) : (s.moveTo p).supven = s.supven := rfl
@[simp] theorem moveTo_supv (s : State) (p : Nat) : (s.moveTo p).supv = s.supv := rfl
@[simp] theorem moveTo_cfg (s : State) (p : Nat) : (s.moveTo p).cfg = s.cfg := rfl
@[simp] theorem moveTo_epoch (s : State) (p : Nat) : (s.moveTo p).epoch = s.epoch := rfl
@[simp] theorem moveTo_pending (s : State) (p : Nat) : (s.moveTo p).pending = s.pending := rfl
@[simp] theorem moveTo_answer (s : State) (p : Nat) : (s.moveTo p).answer = s.answer := rfl

/-! ## emitted -/

@[simp] theorem emitted_mode (s : State) (bs : List Byte) : (s.emitted bs).mode = s.mode := rfl
@[simp] theorem emitted_err (s : State) (bs : List Byte) : (s.emitted bs).err = s.err := rfl
@[simp] theorem emitted_cmd (s : State) (bs : List Byte) : (s.emitted bs).cmd = s.cmd := rfl
@[simp] theorem emitted_buf (s : State) (bs : List Byte) : (s.emitted bs).buf = memPut s.buf s.cur.toNat bs := rfl
@[simp] theorem emitted_cur (s : State) (bs : List Byte) : (s.emitted bs).cur = BitVec.ofNat 16 (s.cur.toNat + bs.length) := rfl
@[simp] theorem emitted_len (s : State) (bs : List Byte) : (s.emitted bs).len = BitVec.ofNat 16 (max s.len.toNat (s.cur.toNat + bs.length)) := rfl
@[simp] theorem emitted_val (s : State) (bs : List Byte) : (s.emitted bs).val = s.val := rfl
@[simp] theorem emitted_wid (s : State) (bs : List Byte) : (s.emitted bs).wid = s.wid := rfl
@[simp] theorem emitted_code (s : State) (bs : List Byte) : (s.emitted bs).code = s.code := rfl
@[simp] theorem emitted_cond (s : State) (bs : List Byte) : (s.emitted bs).cond = s.cond := rfl
@[simp] theorem emitted_tb (s : State) (bs : List Byte) : (s.emitted bs).tb = s.tb := rfl
@[simp] theorem emitted_finfo (s : State) (bs : List Byte) : (s.emitted bs).finfo = s.finfo := rfl
@[simp] theorem emitted_fwid (s : State) (bs : List Byte) : (s.emitted bs).fwid = s.fwid := rfl
@[simp] theorem emitted_largest (s : State) (bs : List Byte) : (s.emitted bs).largest = s.largest := rfl
@[simp] theorem emitted_lowest (s : State) (bs : List Byte) : (s.emitted bs).lowest = s.lowest := rfl
@[simp] theorem emitted_delay (s : State) (bs : List Byte) : (s.emitted bs).delay = s.delay := rfl
@[simp] theorem emitted_nranges (s : State) (bs : List Byte) : (s.emitted bs).nranges = s.nranges := rfl
@[simp] theorem emitted_ridx (s : State) (bs : List Byte) : (s.emitted bs).ridx = s.ridx := rfl
@[simp] theorem emitted_aemit (s : State) (bs : List Byte) : (s.emitted bs).aemit = s.aemit := rfl
@[simp] theorem emitted_rangeFirst (s : State) (bs : List Byte) : (s.emitted bs).rangeFirst = s.rangeFirst := rfl
@[simp] theorem emitted_rangeLast (s : State) (bs : List Byte) : (s.emitted bs).rangeLast = s.rangeLast := rfl
@[simp] theorem emitted_pflags (s : State) (bs : List Byte) : (s.emitted bs).pflags = s.pflags := rfl
@[simp] theorem emitted_pkind (s : State) (bs : List Byte) : (s.emitted bs).pkind = s.pkind := rfl
@[simp] theorem emitted_cid (s : State) (bs : List Byte) : (s.emitted bs).cid = s.cid := rfl
@[simp] theorem emitted_pinfo (s : State) (bs : List Byte) : (s.emitted bs).pinfo = s.pinfo := rfl
@[simp] theorem emitted_ver (s : State) (bs : List Byte) : (s.emitted bs).ver = s.ver := rfl
@[simp] theorem emitted_pnum (s : State) (bs : List Byte) : (s.emitted bs).pnum = s.pnum := rfl
@[simp] theorem emitted_pnlen (s : State) (bs : List Byte) : (s.emitted bs).pnlen = s.pnlen := rfl
@[simp] theorem emitted_nonce0 (s : State) (bs : List Byte) : (s.emitted bs).nonce0 = s.nonce0 := rfl
@[simp] theorem emitted_nonce1 (s : State) (bs : List Byte) : (s.emitted bs).nonce1 = s.nonce1 := rfl
@[simp] theorem emitted_nonce2 (s : State) (bs : List Byte) : (s.emitted bs).nonce2 = s.nonce2 := rfl
@[simp] theorem emitted_nonce3 (s : State) (bs : List Byte) : (s.emitted bs).nonce3 = s.nonce3 := rfl
@[simp] theorem emitted_afam (s : State) (bs : List Byte) : (s.emitted bs).afam = s.afam := rfl
@[simp] theorem emitted_aport (s : State) (bs : List Byte) : (s.emitted bs).aport = s.aport := rfl
@[simp] theorem emitted_addr0 (s : State) (bs : List Byte) : (s.emitted bs).addr0 = s.addr0 := rfl
@[simp] theorem emitted_addr1 (s : State) (bs : List Byte) : (s.emitted bs).addr1 = s.addr1 := rfl
@[simp] theorem emitted_nver (s : State) (bs : List Byte) : (s.emitted bs).nver = s.nver := rfl
@[simp] theorem emitted_negoff (s : State) (bs : List Byte) : (s.emitted bs).negoff = s.negoff := rfl
@[simp] theorem emitted_versel (s : State) (bs : List Byte) : (s.emitted bs).versel = s.versel := rfl
@[simp] theorem emitted_supven (s : State) (bs : List Byte) : (s.emitted bs).supven = s.supven := rfl
@[simp] theorem emitted_supv (s : State) (bs : List Byte) : (s.emitted bs).supv = s.supv := rfl
@[simp] theorem emitted_cfg (s : State) (bs : List Byte) : (s.emitted bs).cfg = s.cfg := rfl
@[simp] theorem emitted_epoch (s : State) (bs : List Byte) : (s.emitted bs).epoch = s.epoch := rfl
@[simp] theorem emitted_pending (s : State) (bs : List Byte) : (s.emitted bs).pending = s.pending := rfl
@[simp] theorem emitted_answer (s : State) (bs : List Byte) : (s.emitted bs).answer = s.answer := rfl

/-! ## setWidth -/

@[simp] theorem setWidth_mode (s : State) (w c : Nat) : (s.setWidth w c).mode = s.mode := rfl
@[simp] theorem setWidth_err (s : State) (w c : Nat) : (s.setWidth w c).err = s.err := rfl
@[simp] theorem setWidth_cmd (s : State) (w c : Nat) : (s.setWidth w c).cmd = s.cmd := rfl
@[simp] theorem setWidth_buf (s : State) (w c : Nat) : (s.setWidth w c).buf = s.buf := rfl
@[simp] theorem setWidth_cur (s : State) (w c : Nat) : (s.setWidth w c).cur = s.cur := rfl
@[simp] theorem setWidth_len (s : State) (w c : Nat) : (s.setWidth w c).len = s.len := rfl
@[simp] theorem setWidth_val (s : State) (w c : Nat) : (s.setWidth w c).val = s.val := rfl
@[simp] theorem setWidth_wid (s : State) (w c : Nat) : (s.setWidth w c).wid = BitVec.ofNat 4 w := rfl
@[simp] theorem setWidth_code (s : State) (w c : Nat) : (s.setWidth w c).code = BitVec.ofNat 3 c := rfl
@[simp] theorem setWidth_cond (s : State) (w c : Nat) : (s.setWidth w c).cond = s.cond := rfl
@[simp] theorem setWidth_tb (s : State) (w c : Nat) : (s.setWidth w c).tb = s.tb := rfl
@[simp] theorem setWidth_finfo (s : State) (w c : Nat) : (s.setWidth w c).finfo = s.finfo := rfl
@[simp] theorem setWidth_fwid (s : State) (w c : Nat) : (s.setWidth w c).fwid = s.fwid := rfl
@[simp] theorem setWidth_largest (s : State) (w c : Nat) : (s.setWidth w c).largest = s.largest := rfl
@[simp] theorem setWidth_lowest (s : State) (w c : Nat) : (s.setWidth w c).lowest = s.lowest := rfl
@[simp] theorem setWidth_delay (s : State) (w c : Nat) : (s.setWidth w c).delay = s.delay := rfl
@[simp] theorem setWidth_nranges (s : State) (w c : Nat) : (s.setWidth w c).nranges = s.nranges := rfl
@[simp] theorem setWidth_ridx (s : State) (w c : Nat) : (s.setWidth w c).ridx = s.ridx := rfl
@[simp] theorem setWidth_aemit (s : State) (w c : Nat) : (s.setWidth w c).aemit = s.aemit := rfl
@[simp] theorem setWidth_rangeFirst (s : State) (w c : Nat) : (s.setWidth w c).rangeFirst = s.rangeFirst := rfl
@[simp] theorem setWidth_rangeLast (s : State) (w c : Nat) : (s.setWidth w c).rangeLast = s.rangeLast := rfl
@[simp] theorem setWidth_pflags (s : State) (w c : Nat) : (s.setWidth w c).pflags = s.pflags := rfl
@[simp] theorem setWidth_pkind (s : State) (w c : Nat) : (s.setWidth w c).pkind = s.pkind := rfl
@[simp] theorem setWidth_cid (s : State) (w c : Nat) : (s.setWidth w c).cid = s.cid := rfl
@[simp] theorem setWidth_pinfo (s : State) (w c : Nat) : (s.setWidth w c).pinfo = s.pinfo := rfl
@[simp] theorem setWidth_ver (s : State) (w c : Nat) : (s.setWidth w c).ver = s.ver := rfl
@[simp] theorem setWidth_pnum (s : State) (w c : Nat) : (s.setWidth w c).pnum = s.pnum := rfl
@[simp] theorem setWidth_pnlen (s : State) (w c : Nat) : (s.setWidth w c).pnlen = s.pnlen := rfl
@[simp] theorem setWidth_nonce0 (s : State) (w c : Nat) : (s.setWidth w c).nonce0 = s.nonce0 := rfl
@[simp] theorem setWidth_nonce1 (s : State) (w c : Nat) : (s.setWidth w c).nonce1 = s.nonce1 := rfl
@[simp] theorem setWidth_nonce2 (s : State) (w c : Nat) : (s.setWidth w c).nonce2 = s.nonce2 := rfl
@[simp] theorem setWidth_nonce3 (s : State) (w c : Nat) : (s.setWidth w c).nonce3 = s.nonce3 := rfl
@[simp] theorem setWidth_afam (s : State) (w c : Nat) : (s.setWidth w c).afam = s.afam := rfl
@[simp] theorem setWidth_aport (s : State) (w c : Nat) : (s.setWidth w c).aport = s.aport := rfl
@[simp] theorem setWidth_addr0 (s : State) (w c : Nat) : (s.setWidth w c).addr0 = s.addr0 := rfl
@[simp] theorem setWidth_addr1 (s : State) (w c : Nat) : (s.setWidth w c).addr1 = s.addr1 := rfl
@[simp] theorem setWidth_nver (s : State) (w c : Nat) : (s.setWidth w c).nver = s.nver := rfl
@[simp] theorem setWidth_negoff (s : State) (w c : Nat) : (s.setWidth w c).negoff = s.negoff := rfl
@[simp] theorem setWidth_versel (s : State) (w c : Nat) : (s.setWidth w c).versel = s.versel := rfl
@[simp] theorem setWidth_supven (s : State) (w c : Nat) : (s.setWidth w c).supven = s.supven := rfl
@[simp] theorem setWidth_supv (s : State) (w c : Nat) : (s.setWidth w c).supv = s.supv := rfl
@[simp] theorem setWidth_cfg (s : State) (w c : Nat) : (s.setWidth w c).cfg = s.cfg := rfl
@[simp] theorem setWidth_epoch (s : State) (w c : Nat) : (s.setWidth w c).epoch = s.epoch := rfl
@[simp] theorem setWidth_pending (s : State) (w c : Nat) : (s.setWidth w c).pending = s.pending := rfl
@[simp] theorem setWidth_answer (s : State) (w c : Nat) : (s.setWidth w c).answer = s.answer := rfl

/-! ## classified -/

@[simp] theorem classified_mode (t : Byte) (r : FrameFields) (s : State) : (classified t r s).mode = s.mode := rfl
@[simp] theorem classified_err (t : Byte) (r : FrameFields) (s : State) : (classified t r s).err = s.err := rfl
@[simp] theorem classified_cmd (t : Byte) (r : FrameFields) (s : State) : (classified t r s).cmd = s.cmd := rfl
@[simp] theorem classified_buf (t : Byte) (r : FrameFields) (s : State) : (classified t r s).buf = s.buf := rfl
@[simp] theorem classified_cur (t : Byte) (r : FrameFields) (s : State) : (classified t r s).cur = s.cur := rfl
@[simp] theorem classified_len (t : Byte) (r : FrameFields) (s : State) : (classified t r s).len = s.len := rfl
@[simp] theorem classified_val (t : Byte) (r : FrameFields) (s : State) : (classified t r s).val = s.val := rfl
@[simp] theorem classified_wid (t : Byte) (r : FrameFields) (s : State) : (classified t r s).wid = s.wid := rfl
@[simp] theorem classified_code (t : Byte) (r : FrameFields) (s : State) : (classified t r s).code = s.code := rfl
@[simp] theorem classified_cond (t : Byte) (r : FrameFields) (s : State) : (classified t r s).cond = s.cond := rfl
@[simp] theorem classified_tb (t : Byte) (r : FrameFields) (s : State) : (classified t r s).tb = t := rfl
@[simp] theorem classified_finfo (t : Byte) (r : FrameFields) (s : State) : (classified t r s).finfo = finfoOf r := rfl
@[simp] theorem classified_fwid (t : Byte) (r : FrameFields) (s : State) : (classified t r s).fwid = fwidOf r := rfl
@[simp] theorem classified_largest (t : Byte) (r : FrameFields) (s : State) : (classified t r s).largest = s.largest := rfl
@[simp] theorem classified_lowest (t : Byte) (r : FrameFields) (s : State) : (classified t r s).lowest = s.lowest := rfl
@[simp] theorem classified_delay (t : Byte) (r : FrameFields) (s : State) : (classified t r s).delay = s.delay := rfl
@[simp] theorem classified_nranges (t : Byte) (r : FrameFields) (s : State) : (classified t r s).nranges = s.nranges := rfl
@[simp] theorem classified_ridx (t : Byte) (r : FrameFields) (s : State) : (classified t r s).ridx = s.ridx := rfl
@[simp] theorem classified_aemit (t : Byte) (r : FrameFields) (s : State) : (classified t r s).aemit = s.aemit := rfl
@[simp] theorem classified_rangeFirst (t : Byte) (r : FrameFields) (s : State) : (classified t r s).rangeFirst = s.rangeFirst := rfl
@[simp] theorem classified_rangeLast (t : Byte) (r : FrameFields) (s : State) : (classified t r s).rangeLast = s.rangeLast := rfl
@[simp] theorem classified_pflags (t : Byte) (r : FrameFields) (s : State) : (classified t r s).pflags = s.pflags := rfl
@[simp] theorem classified_pkind (t : Byte) (r : FrameFields) (s : State) : (classified t r s).pkind = s.pkind := rfl
@[simp] theorem classified_cid (t : Byte) (r : FrameFields) (s : State) : (classified t r s).cid = s.cid := rfl
@[simp] theorem classified_pinfo (t : Byte) (r : FrameFields) (s : State) : (classified t r s).pinfo = s.pinfo := rfl
@[simp] theorem classified_ver (t : Byte) (r : FrameFields) (s : State) : (classified t r s).ver = s.ver := rfl
@[simp] theorem classified_pnum (t : Byte) (r : FrameFields) (s : State) : (classified t r s).pnum = s.pnum := rfl
@[simp] theorem classified_pnlen (t : Byte) (r : FrameFields) (s : State) : (classified t r s).pnlen = s.pnlen := rfl
@[simp] theorem classified_nonce0 (t : Byte) (r : FrameFields) (s : State) : (classified t r s).nonce0 = s.nonce0 := rfl
@[simp] theorem classified_nonce1 (t : Byte) (r : FrameFields) (s : State) : (classified t r s).nonce1 = s.nonce1 := rfl
@[simp] theorem classified_nonce2 (t : Byte) (r : FrameFields) (s : State) : (classified t r s).nonce2 = s.nonce2 := rfl
@[simp] theorem classified_nonce3 (t : Byte) (r : FrameFields) (s : State) : (classified t r s).nonce3 = s.nonce3 := rfl
@[simp] theorem classified_afam (t : Byte) (r : FrameFields) (s : State) : (classified t r s).afam = s.afam := rfl
@[simp] theorem classified_aport (t : Byte) (r : FrameFields) (s : State) : (classified t r s).aport = s.aport := rfl
@[simp] theorem classified_addr0 (t : Byte) (r : FrameFields) (s : State) : (classified t r s).addr0 = s.addr0 := rfl
@[simp] theorem classified_addr1 (t : Byte) (r : FrameFields) (s : State) : (classified t r s).addr1 = s.addr1 := rfl
@[simp] theorem classified_nver (t : Byte) (r : FrameFields) (s : State) : (classified t r s).nver = s.nver := rfl
@[simp] theorem classified_negoff (t : Byte) (r : FrameFields) (s : State) : (classified t r s).negoff = s.negoff := rfl
@[simp] theorem classified_versel (t : Byte) (r : FrameFields) (s : State) : (classified t r s).versel = s.versel := rfl
@[simp] theorem classified_supven (t : Byte) (r : FrameFields) (s : State) : (classified t r s).supven = s.supven := rfl
@[simp] theorem classified_supv (t : Byte) (r : FrameFields) (s : State) : (classified t r s).supv = s.supv := rfl
@[simp] theorem classified_cfg (t : Byte) (r : FrameFields) (s : State) : (classified t r s).cfg = s.cfg := rfl
@[simp] theorem classified_epoch (t : Byte) (r : FrameFields) (s : State) : (classified t r s).epoch = s.epoch := rfl
@[simp] theorem classified_pending (t : Byte) (r : FrameFields) (s : State) : (classified t r s).pending = s.pending := rfl
@[simp] theorem classified_answer (t : Byte) (r : FrameFields) (s : State) : (classified t r s).answer = s.answer := rfl

/-! ## built -/

@[simp] theorem built_mode (s : State) (f : Byte) (k w : Nat) : (s.built f k w).mode = s.mode := rfl
@[simp] theorem built_err (s : State) (f : Byte) (k w : Nat) : (s.built f k w).err = s.err := rfl
@[simp] theorem built_cmd (s : State) (f : Byte) (k w : Nat) : (s.built f k w).cmd = s.cmd := rfl
@[simp] theorem built_buf (s : State) (f : Byte) (k w : Nat) : (s.built f k w).buf = s.buf := rfl
@[simp] theorem built_cur (s : State) (f : Byte) (k w : Nat) : (s.built f k w).cur = s.cur := rfl
@[simp] theorem built_len (s : State) (f : Byte) (k w : Nat) : (s.built f k w).len = s.len := rfl
@[simp] theorem built_val (s : State) (f : Byte) (k w : Nat) : (s.built f k w).val = s.val := rfl
@[simp] theorem built_wid (s : State) (f : Byte) (k w : Nat) : (s.built f k w).wid = s.wid := rfl
@[simp] theorem built_code (s : State) (f : Byte) (k w : Nat) : (s.built f k w).code = s.code := rfl
@[simp] theorem built_cond (s : State) (f : Byte) (k w : Nat) : (s.built f k w).cond = s.cond := rfl
@[simp] theorem built_tb (s : State) (f : Byte) (k w : Nat) : (s.built f k w).tb = s.tb := rfl
@[simp] theorem built_finfo (s : State) (f : Byte) (k w : Nat) : (s.built f k w).finfo = s.finfo := rfl
@[simp] theorem built_fwid (s : State) (f : Byte) (k w : Nat) : (s.built f k w).fwid = s.fwid := rfl
@[simp] theorem built_largest (s : State) (f : Byte) (k w : Nat) : (s.built f k w).largest = s.largest := rfl
@[simp] theorem built_lowest (s : State) (f : Byte) (k w : Nat) : (s.built f k w).lowest = s.lowest := rfl
@[simp] theorem built_delay (s : State) (f : Byte) (k w : Nat) : (s.built f k w).delay = s.delay := rfl
@[simp] theorem built_nranges (s : State) (f : Byte) (k w : Nat) : (s.built f k w).nranges = s.nranges := rfl
@[simp] theorem built_ridx (s : State) (f : Byte) (k w : Nat) : (s.built f k w).ridx = s.ridx := rfl
@[simp] theorem built_aemit (s : State) (f : Byte) (k w : Nat) : (s.built f k w).aemit = s.aemit := rfl
@[simp] theorem built_rangeFirst (s : State) (f : Byte) (k w : Nat) : (s.built f k w).rangeFirst = s.rangeFirst := rfl
@[simp] theorem built_rangeLast (s : State) (f : Byte) (k w : Nat) : (s.built f k w).rangeLast = s.rangeLast := rfl
@[simp] theorem built_pflags (s : State) (f : Byte) (k w : Nat) : (s.built f k w).pflags = f := rfl
@[simp] theorem built_pkind (s : State) (f : Byte) (k w : Nat) : (s.built f k w).pkind = BitVec.ofNat 2 k := rfl
@[simp] theorem built_cid (s : State) (f : Byte) (k w : Nat) : (s.built f k w).cid = s.cid := rfl
@[simp] theorem built_pinfo (s : State) (f : Byte) (k w : Nat) : (s.built f k w).pinfo = s.pinfo := rfl
@[simp] theorem built_ver (s : State) (f : Byte) (k w : Nat) : (s.built f k w).ver = s.ver := rfl
@[simp] theorem built_pnum (s : State) (f : Byte) (k w : Nat) : (s.built f k w).pnum = s.pnum := rfl
@[simp] theorem built_pnlen (s : State) (f : Byte) (k w : Nat) : (s.built f k w).pnlen = BitVec.ofNat 4 w := rfl
@[simp] theorem built_nonce0 (s : State) (f : Byte) (k w : Nat) : (s.built f k w).nonce0 = s.nonce0 := rfl
@[simp] theorem built_nonce1 (s : State) (f : Byte) (k w : Nat) : (s.built f k w).nonce1 = s.nonce1 := rfl
@[simp] theorem built_nonce2 (s : State) (f : Byte) (k w : Nat) : (s.built f k w).nonce2 = s.nonce2 := rfl
@[simp] theorem built_nonce3 (s : State) (f : Byte) (k w : Nat) : (s.built f k w).nonce3 = s.nonce3 := rfl
@[simp] theorem built_afam (s : State) (f : Byte) (k w : Nat) : (s.built f k w).afam = s.afam := rfl
@[simp] theorem built_aport (s : State) (f : Byte) (k w : Nat) : (s.built f k w).aport = s.aport := rfl
@[simp] theorem built_addr0 (s : State) (f : Byte) (k w : Nat) : (s.built f k w).addr0 = s.addr0 := rfl
@[simp] theorem built_addr1 (s : State) (f : Byte) (k w : Nat) : (s.built f k w).addr1 = s.addr1 := rfl
@[simp] theorem built_nver (s : State) (f : Byte) (k w : Nat) : (s.built f k w).nver = s.nver := rfl
@[simp] theorem built_negoff (s : State) (f : Byte) (k w : Nat) : (s.built f k w).negoff = s.negoff := rfl
@[simp] theorem built_versel (s : State) (f : Byte) (k w : Nat) : (s.built f k w).versel = s.versel := rfl
@[simp] theorem built_supven (s : State) (f : Byte) (k w : Nat) : (s.built f k w).supven = s.supven := rfl
@[simp] theorem built_supv (s : State) (f : Byte) (k w : Nat) : (s.built f k w).supv = s.supv := rfl
@[simp] theorem built_cfg (s : State) (f : Byte) (k w : Nat) : (s.built f k w).cfg = s.cfg := rfl
@[simp] theorem built_epoch (s : State) (f : Byte) (k w : Nat) : (s.built f k w).epoch = s.epoch := rfl
@[simp] theorem built_pending (s : State) (f : Byte) (k w : Nat) : (s.built f k w).pending = s.pending := rfl
@[simp] theorem built_answer (s : State) (f : Byte) (k w : Nat) : (s.built f k w).answer = s.answer := rfl

/-! ## loadPacket -/

@[simp] theorem loadPacket_mode (f : Byte) (c : Nat) (p : Parsed) (s : State) : (loadPacket f c p s).mode = s.mode := rfl
@[simp] theorem loadPacket_err (f : Byte) (c : Nat) (p : Parsed) (s : State) : (loadPacket f c p s).err = s.err := rfl
@[simp] theorem loadPacket_cmd (f : Byte) (c : Nat) (p : Parsed) (s : State) : (loadPacket f c p s).cmd = s.cmd := rfl
@[simp] theorem loadPacket_buf (f : Byte) (c : Nat) (p : Parsed) (s : State) : (loadPacket f c p s).buf = s.buf := rfl
@[simp] theorem loadPacket_cur (f : Byte) (c : Nat) (p : Parsed) (s : State) : (loadPacket f c p s).cur = BitVec.ofNat 16 p.next := rfl
@[simp] theorem loadPacket_len (f : Byte) (c : Nat) (p : Parsed) (s : State) : (loadPacket f c p s).len = s.len := rfl
@[simp] theorem loadPacket_val (f : Byte) (c : Nat) (p : Parsed) (s : State) : (loadPacket f c p s).val = s.val := rfl
@[simp] theorem loadPacket_wid (f : Byte) (c : Nat) (p : Parsed) (s : State) : (loadPacket f c p s).wid = s.wid := rfl
@[simp] theorem loadPacket_code (f : Byte) (c : Nat) (p : Parsed) (s : State) : (loadPacket f c p s).code = s.code := rfl
@[simp] theorem loadPacket_cond (f : Byte) (c : Nat) (p : Parsed) (s : State) : (loadPacket f c p s).cond = s.cond := rfl
@[simp] theorem loadPacket_tb (f : Byte) (c : Nat) (p : Parsed) (s : State) : (loadPacket f c p s).tb = s.tb := rfl
@[simp] theorem loadPacket_finfo (f : Byte) (c : Nat) (p : Parsed) (s : State) : (loadPacket f c p s).finfo = s.finfo := rfl
@[simp] theorem loadPacket_fwid (f : Byte) (c : Nat) (p : Parsed) (s : State) : (loadPacket f c p s).fwid = s.fwid := rfl
@[simp] theorem loadPacket_largest (f : Byte) (c : Nat) (p : Parsed) (s : State) : (loadPacket f c p s).largest = s.largest := rfl
@[simp] theorem loadPacket_lowest (f : Byte) (c : Nat) (p : Parsed) (s : State) : (loadPacket f c p s).lowest = s.lowest := rfl
@[simp] theorem loadPacket_delay (f : Byte) (c : Nat) (p : Parsed) (s : State) : (loadPacket f c p s).delay = s.delay := rfl
@[simp] theorem loadPacket_nranges (f : Byte) (c : Nat) (p : Parsed) (s : State) : (loadPacket f c p s).nranges = s.nranges := rfl
@[simp] theorem loadPacket_ridx (f : Byte) (c : Nat) (p : Parsed) (s : State) : (loadPacket f c p s).ridx = s.ridx := rfl
@[simp] theorem loadPacket_aemit (f : Byte) (c : Nat) (p : Parsed) (s : State) : (loadPacket f c p s).aemit = s.aemit := rfl
@[simp] theorem loadPacket_rangeFirst (f : Byte) (c : Nat) (p : Parsed) (s : State) : (loadPacket f c p s).rangeFirst = s.rangeFirst := rfl
@[simp] theorem loadPacket_rangeLast (f : Byte) (c : Nat) (p : Parsed) (s : State) : (loadPacket f c p s).rangeLast = s.rangeLast := rfl
@[simp] theorem loadPacket_pflags (f : Byte) (c : Nat) (p : Parsed) (s : State) : (loadPacket f c p s).pflags = f := rfl
@[simp] theorem loadPacket_pkind (f : Byte) (c : Nat) (p : Parsed) (s : State) : (loadPacket f c p s).pkind = BitVec.ofNat 2 p.pkind := rfl
@[simp] theorem loadPacket_cid (f : Byte) (c : Nat) (p : Parsed) (s : State) : (loadPacket f c p s).cid = BitVec.ofNat 64 c := rfl
@[simp] theorem loadPacket_pinfo (f : Byte) (c : Nat) (p : Parsed) (s : State) : (loadPacket f c p s).pinfo = BitVec.ofNat 3 p.pinfo := rfl
@[simp] theorem loadPacket_ver (f : Byte) (c : Nat) (p : Parsed) (s : State) : (loadPacket f c p s).ver = BitVec.ofNat 32 p.ver := rfl
@[simp] theorem loadPacket_pnum (f : Byte) (c : Nat) (p : Parsed) (s : State) : (loadPacket f c p s).pnum = BitVec.ofNat 48 p.pnum := rfl
@[simp] theorem loadPacket_pnlen (f : Byte) (c : Nat) (p : Parsed) (s : State) : (loadPacket f c p s).pnlen = BitVec.ofNat 4 p.pnlen := rfl
@[simp] theorem loadPacket_nonce0 (f : Byte) (c : Nat) (p : Parsed) (s : State) : (loadPacket f c p s).nonce0 = BitVec.ofNat 64 p.nonce0 := rfl
@[simp] theorem loadPacket_nonce1 (f : Byte) (c : Nat) (p : Parsed) (s : State) : (loadPacket f c p s).nonce1 = BitVec.ofNat 64 p.nonce1 := rfl
@[simp] theorem loadPacket_nonce2 (f : Byte) (c : Nat) (p : Parsed) (s : State) : (loadPacket f c p s).nonce2 = BitVec.ofNat 64 p.nonce2 := rfl
@[simp] theorem loadPacket_nonce3 (f : Byte) (c : Nat) (p : Parsed) (s : State) : (loadPacket f c p s).nonce3 = BitVec.ofNat 64 p.nonce3 := rfl
@[simp] theorem loadPacket_afam (f : Byte) (c : Nat) (p : Parsed) (s : State) : (loadPacket f c p s).afam = BitVec.ofNat 16 p.afam := rfl
@[simp] theorem loadPacket_aport (f : Byte) (c : Nat) (p : Parsed) (s : State) : (loadPacket f c p s).aport = BitVec.ofNat 16 p.aport := rfl
@[simp] theorem loadPacket_addr0 (f : Byte) (c : Nat) (p : Parsed) (s : State) : (loadPacket f c p s).addr0 = BitVec.ofNat 64 p.addr0 := rfl
@[simp] theorem loadPacket_addr1 (f : Byte) (c : Nat) (p : Parsed) (s : State) : (loadPacket f c p s).addr1 = BitVec.ofNat 64 p.addr1 := rfl
@[simp] theorem loadPacket_nver (f : Byte) (c : Nat) (p : Parsed) (s : State) : (loadPacket f c p s).nver = BitVec.ofNat 16 p.nver := rfl
@[simp] theorem loadPacket_negoff (f : Byte) (c : Nat) (p : Parsed) (s : State) : (loadPacket f c p s).negoff = BitVec.ofNat 16 p.negoff := rfl
@[simp] theorem loadPacket_versel (f : Byte) (c : Nat) (p : Parsed) (s : State) : (loadPacket f c p s).versel = s.versel := rfl
@[simp] theorem loadPacket_supven (f : Byte) (c : Nat) (p : Parsed) (s : State) : (loadPacket f c p s).supven = s.supven := rfl
@[simp] theorem loadPacket_supv (f : Byte) (c : Nat) (p : Parsed) (s : State) : (loadPacket f c p s).supv = s.supv := rfl
@[simp] theorem loadPacket_cfg (f : Byte) (c : Nat) (p : Parsed) (s : State) : (loadPacket f c p s).cfg = s.cfg := rfl
@[simp] theorem loadPacket_epoch (f : Byte) (c : Nat) (p : Parsed) (s : State) : (loadPacket f c p s).epoch = s.epoch := rfl
@[simp] theorem loadPacket_pending (f : Byte) (c : Nat) (p : Parsed) (s : State) : (loadPacket f c p s).pending = s.pending := rfl
@[simp] theorem loadPacket_answer (f : Byte) (c : Nat) (p : Parsed) (s : State) : (loadPacket f c p s).answer = s.answer := rfl

end Sys2Proof.Machine
end

