-- ==== Sys2Proof/Laws/Memory.lean ====
section
/-! SUPPORT. The laws of the sparse tables and of the bytes of BUF: read after write, the canonical form, and
little-endian integers. -/

namespace Sys2Proof.Machine

section Table

variable {α : Type}

theorem tableGet_tableSet (m : List (Nat × α)) (a b : Nat) (v : α) :
    tableGet (tableSet m a v) b = if b = a then some v else tableGet m b := by
  induction m with
  | nil => simp [tableSet, tableGet]
  | cons c m ih =>
    obtain ⟨k, w⟩ := c
    simp only [tableSet]
    split
    · simp [tableGet]
    · split
      · subst_vars
        simp only [tableGet]
        split <;> simp_all
      · simp only [tableGet, ih]
        split
        · subst_vars; simp_all [Ne.symm]
        · rfl

theorem tableGet_tableSet_same (m : List (Nat × α)) (a : Nat) (v : α) :
    tableGet (tableSet m a v) a = some v := by simp [tableGet_tableSet]

theorem tableGet_tableSet_other (m : List (Nat × α)) {a b : Nat} (v : α) (h : b ≠ a) :
    tableGet (tableSet m a v) b = tableGet m b := by simp [tableGet_tableSet, h]

theorem tableSorted_weaken {high low low' : Nat} {m : List (Nat × α)} (hl : low' ≤ low)
    (h : tableSorted high low m = true) : tableSorted high low' m = true := by
  cases m with
  | nil => rfl
  | cons c m =>
    obtain ⟨k, w⟩ := c
    simp only [tableSorted, Bool.and_eq_true, decide_eq_true_eq] at h ⊢
    exact ⟨⟨by omega, h.1.2⟩, h.2⟩

/-- Every write keeps the canonical form. -/
theorem tableSorted_tableSet {high a : Nat} (ha : a < high) (v : α) {low : Nat} {m : List (Nat × α)} (hl : low ≤ a)
    (h : tableSorted high low m = true) : tableSorted high low (tableSet m a v) = true := by
  induction m generalizing low with
  | nil => simp [tableSet, tableSorted, hl, ha]
  | cons c m ih =>
    obtain ⟨k, w⟩ := c
    simp only [tableSorted, Bool.and_eq_true, decide_eq_true_eq] at h
    simp only [tableSet]
    split
    · simp only [tableSorted, Bool.and_eq_true, decide_eq_true_eq]
      exact ⟨⟨hl, ha⟩, ⟨by omega, h.1.2⟩, h.2⟩
    · split
      · subst_vars
        simp only [tableSorted, Bool.and_eq_true, decide_eq_true_eq]
        exact ⟨⟨hl, ha⟩, h.2⟩
      · simp only [tableSorted, Bool.and_eq_true, decide_eq_true_eq]
        exact ⟨h.1, ih (by omega) h.2⟩

theorem tableGet_below {high low a : Nat} {m : List (Nat × α)} (h : tableSorted high low m = true) (ha : a < low) :
    tableGet m a = none := by
  induction m generalizing low with
  | nil => rfl
  | cons c m ih =>
    obtain ⟨k, w⟩ := c
    simp only [tableSorted, Bool.and_eq_true, decide_eq_true_eq] at h
    simp only [tableGet]
    rw [if_neg (by omega)]
    exact ih h.2 (by omega)

/-- In canonical form, tables that answer every read alike are equal data. -/
theorem table_ext {high low : Nat} {m m' : List (Nat × α)} (h : tableSorted high low m = true)
    (h' : tableSorted high low m' = true) (e : ∀ a, tableGet m a = tableGet m' a) : m = m' := by
  induction m generalizing low m' with
  | nil =>
    cases m' with
    | nil => rfl
    | cons c m' => obtain ⟨k, w⟩ := c; have := e k; simp [tableGet] at this
  | cons c m ih =>
    obtain ⟨k, w⟩ := c
    cases m' with
    | nil => have := e k; simp [tableGet] at this
    | cons c' m' =>
      obtain ⟨k', w'⟩ := c'
      simp only [tableSorted, Bool.and_eq_true, decide_eq_true_eq] at h h'
      have hk : k = k' := by
        have e1 := e k
        have e2 := e k'
        simp only [tableGet] at e1 e2
        by_contra hne
        rw [if_pos trivial, if_neg hne] at e1
        rw [if_neg (Ne.symm hne), if_pos trivial] at e2
        rcases Nat.lt_or_gt_of_ne hne with hlt | hgt
        · rw [tableGet_below h'.2 (by omega)] at e1; exact absurd e1 (by simp)
        · rw [tableGet_below h.2 (by omega)] at e2; exact absurd e2.symm (by simp)
      subst hk
      have hw : w = w' := by have := e k; simpa [tableGet] using this
      subst hw
      have : m = m' := by
        refine ih h.2 h'.2 fun a => ?_
        have := e a
        simp only [tableGet] at this
        by_cases ha : a = k
        · subst ha; rw [tableGet_below h.2 (by omega), tableGet_below h'.2 (by omega)]
        · simpa [ha] using this
      rw [this]

end Table

/-- `MemPut` stores its bytes at consecutive addresses and nothing elsewhere. -/
theorem tableGet_memPut (bs : List Byte) (m : Memory) (a b : Nat) :
    tableGet (memPut m a bs) b = if a ≤ b ∧ b < a + bs.length then bs[b - a]? else tableGet m b := by
  induction bs generalizing m a with
  | nil => simp [memPut]
  | cons x xs ih =>
    simp only [memPut, ih, List.length_cons, tableGet_tableSet]
    by_cases hb : b = a
    · subst hb; simp
    · by_cases h1 : a + 1 ≤ b ∧ b < a + 1 + xs.length
      · have e : b - a = (b - (a + 1)) + 1 := by omega
        rw [if_pos h1, if_pos (by omega), e, List.getElem?_cons_succ]
      · rw [if_neg h1, if_neg hb, if_neg (by omega)]

theorem memPut_wf {size a : Nat} (bs : List Byte) {m : Memory} (h : Memory.wf size m = true)
    (hs : a + bs.length ≤ size) : Memory.wf size (memPut m a bs) = true := by
  induction bs generalizing m a with
  | nil => simpa [memPut] using h
  | cons x xs ih =>
    simp only [List.length_cons] at hs
    exact ih (tableSorted_tableSet (by omega) x (Nat.zero_le a) h) (by omega)

/-- Reset's memory has the canonical form. -/
theorem reset_memory_wf : Memory.wf State.reset.cfg.bufSize State.reset.buf = true := rfl

@[simp] theorem leBytes_length (n v : Nat) : (leBytes n v).length = n := by
  induction n generalizing v with
  | zero => rfl
  | succ n ih => simp [leBytes, ih]

/-- Byte `i` of `MemWrite(a, n, v)` is `(v div 2^(8*i)) mod 256` (20_memory.md R61). -/
theorem leBytes_getElem? (n v i : Nat) (h : i < n) :
    (leBytes n v)[i]? = some (BitVec.ofNat 8 (v / 256 ^ i)) := by
  induction n generalizing v i with
  | zero => omega
  | succ n ih =>
    cases i with
    | zero => simp [leBytes]
    | succ i => simp only [leBytes, List.getElem?_cons_succ]; rw [ih _ _ (by omega), Nat.div_div_eq_div_mul, pow_succ']

theorem State.memRead_lt (s : State) (a n : Nat) : s.memRead a n < 256 ^ n := by
  induction n generalizing a with
  | zero => simp [State.memRead]
  | succ n ih =>
    have h1 := ih (a + 1)
    have h2 := (s.byte a).isLt
    rw [State.memRead, pow_succ]
    omega

/-- `MemRead` depends only on the bytes it reads. -/
theorem State.memRead_congr {s t : State} {a n : Nat} (h : ∀ i, i < n → t.byte (a + i) = s.byte (a + i)) :
    t.memRead a n = s.memRead a n := by
  induction n generalizing a with
  | zero => rfl
  | succ n ih =>
    rw [State.memRead, State.memRead, ih fun i hi => by simpa [Nat.add_assoc, Nat.add_comm 1] using h (i + 1) (by omega)]
    rw [show t.byte a = s.byte a from h 0 (by omega)]

theorem State.memBytes_congr {s t : State} {a n : Nat} (h : ∀ i, i < n → t.byte (a + i) = s.byte (a + i)) :
    t.memBytes a n = s.memBytes a n := by
  induction n generalizing a with
  | zero => rfl
  | succ n ih =>
    rw [State.memBytes, State.memBytes, ih fun i hi => by simpa [Nat.add_assoc, Nat.add_comm 1] using h (i + 1) (by omega)]
    rw [show t.byte a = s.byte a from h 0 (by omega)]

@[simp] theorem State.memBytes_length (s : State) (a n : Nat) : (s.memBytes a n).length = n := by
  induction n generalizing a with
  | zero => rfl
  | succ n ih => simp [State.memBytes, ih]

theorem State.memBytes_getElem? (s : State) (a n i : Nat) (h : i < n) : (s.memBytes a n)[i]? = some (s.byte (a + i)) := by
  induction n generalizing a i with
  | zero => omega
  | succ n ih =>
    cases i with
    | zero => simp [State.memBytes]
    | succ i => simp only [State.memBytes, List.getElem?_cons_succ]; rw [ih _ _ (by omega)]; congr 2; omega

/-- Where memory holds the bytes of a little-endian integer, `MemRead` reads it back. -/
theorem State.memRead_of_leBytes {s : State} {a n v : Nat} (hv : v < 256 ^ n)
    (h : ∀ i, i < n → some (s.byte (a + i)) = (leBytes n v)[i]?) : s.memRead a n = v := by
  induction n generalizing a v with
  | zero => simp at hv; simp [State.memRead, hv]
  | succ n ih =>
    rw [State.memRead, ih (a := a + 1) (v := v / 256)]
    · have h0 := h 0 (by omega)
      simp only [Nat.add_zero, leBytes, List.getElem?_cons_zero, Option.some.injEq] at h0
      rw [h0, BitVec.toNat_ofNat]
      omega
    · rw [pow_succ] at hv; omega
    · intro i hi
      have := h (i + 1) (by omega)
      simpa [leBytes, Nat.add_assoc, Nat.add_comm 1] using this

/-- Two states with the same BUF and the same reset count read every byte alike. -/
theorem State.byte_congr {s t : State} (hb : t.buf = s.buf) (he : t.epoch = s.epoch) (a : Nat) :
    t.byte a = s.byte a := by simp [State.byte, hb, he]

theorem State.byte_of_getElem? {s : State} {a : Nat} {b : Byte} (h : tableGet s.buf a = some b) : s.byte a = b := by
  simp [State.byte, h]

end Sys2Proof.Machine
end

