-- ==== Sys2Proof/Laws/Ops.lean ====
section
/-! SUPPORT. One lemma per shared operation, saying once everything it can do. -/

namespace Sys2Proof.Machine

/-! ## Faults and issue -/

theorem faultNumber_ne_zero (e : FaultCode) : faultNumber e ≠ 0 := by cases e <;> decide

theorem faultNumber_le (e : FaultCode) : (faultNumber e).toNat ≤ 11 := by cases e <;> decide

@[simp] theorem raise_eq (e : FaultCode) (s : State) : raise e s = .next (takeFault e s) := rfl

theorem settle_of_ok {body : State → Except FaultCode State} {s t : State} (h : body s = .ok t) :
    settle body s = .next t := by simp [settle, h]

theorem settle_of_error {body : State → Except FaultCode State} {s : State} {e : FaultCode} (h : body s = .error e) :
    settle body s = .next (takeFault e s) := by simp [settle, h]

/-- A settled rule either makes all of its writes or takes one fault. -/
theorem settle_cases {body : State → Except FaultCode State} {s t : State} (h : settle body s = .next t) :
    body s = .ok t ∨ ∃ e, body s = .error e ∧ t = takeFault e s := by
  cases hb : body s with
  | ok u => rw [settle_of_ok hb] at h; cases h; exact .inl rfl
  | error e => rw [settle_of_error hb] at h; cases h; exact .inr ⟨e, rfl, rfl⟩

theorem settle_completes (body : State → Except FaultCode State) (s : State) : Completes (settle body s) := by
  cases hb : body s with
  | ok u => exact ⟨u, settle_of_ok hb⟩
  | error e => exact ⟨_, settle_of_error hb⟩

/-- A settled rule depends only on the rule's answer. -/
theorem settle_congr {b b' : State → Except FaultCode State} {s : State} (h : b s = b' s) : settle b s = settle b' s := by
  simp [settle, h]

theorem command_ready {w : CommandWord} {body : State → Outcome} {s : State} (h : s.mode = .ready) :
    command w body s = body (withCmd w s) := by simp [command, h]

theorem command_faulted {w : CommandWord} {body : State → Outcome} {s : State} (h : s.mode = .faulted) :
    command w body s = .next s := by simp [command, h]

theorem wireByte_ready {body : State → Outcome} {s : State} (h : s.mode = .ready) : wireByte body s = body s := by
  simp [wireByte, h]

theorem wireByte_faulted {body : State → Outcome} {s : State} (h : s.mode = .faulted) : wireByte body s = .next s := by
  simp [wireByte, h]

/-! ## Emitting bytes -/

theorem emit_ok_iff {bs : List Byte} {s t : State} :
    emit bs s = .ok t ↔ s.cur.toNat + bs.length ≤ s.cfg.bufSize ∧ t = s.emitted bs := by
  unfold emit
  split
  · constructor
    · intro h; cases h
    · rintro ⟨h, -⟩; omega
  · constructor
    · intro h; cases h; exact ⟨by omega, rfl⟩
    · rintro ⟨-, rfl⟩; rfl

theorem emit_error_iff {bs : List Byte} {s : State} {e : FaultCode} :
    emit bs s = .error e ↔ s.cfg.bufSize < s.cur.toNat + bs.length ∧ e = .noSpace := by
  unfold emit
  split
  · constructor
    · intro h; cases h; exact ⟨by omega, rfl⟩
    · rintro ⟨-, rfl⟩; rfl
  · constructor
    · intro h; cases h
    · rintro ⟨h, -⟩; omega

/-- Emitted bytes stand at the cursor. -/
theorem emitted_byte_inside (s : State) (bs : List Byte) (k : Nat) (h : k < bs.length) :
    some ((s.emitted bs).byte (s.cur.toNat + k)) = bs[k]? := by
  have hk : bs[k]? = some bs[k] := List.getElem?_eq_getElem h
  rw [hk, State.byte, emitted_buf, tableGet_memPut, if_pos (by omega), Nat.add_sub_cancel_left, hk]
  rfl

/-- Emitting bytes changes no byte but those. -/
theorem emitted_byte_outside (s : State) (bs : List Byte) (a : Nat)
    (h : a < s.cur.toNat ∨ s.cur.toNat + bs.length ≤ a) : (s.emitted bs).byte a = s.byte a := by
  rw [State.byte, State.byte, emitted_buf, tableGet_memPut, if_neg (by omega), emitted_epoch]

theorem emitted_wf {s : State} {bs : List Byte} (h : Memory.wf s.cfg.bufSize s.buf = true)
    (hf : s.cur.toNat + bs.length ≤ s.cfg.bufSize) : Memory.wf (s.emitted bs).cfg.bufSize (s.emitted bs).buf = true :=
  memPut_wf bs h hf

/-! ## Byte strings in memory -/

/-- The bytes `bs` stand in BUF from address `a` on. -/
def Holds (s : State) (a : Nat) (bs : List Byte) : Prop := ∀ k, k < bs.length → some (s.byte (a + k)) = bs[k]?

theorem holds_nil (s : State) (a : Nat) : Holds s a [] := fun _ h => absurd h (Nat.not_lt_zero _)

theorem holds_cons {s : State} {a : Nat} {b : Byte} {bs : List Byte} :
    Holds s a (b :: bs) ↔ s.byte a = b ∧ Holds s (a + 1) bs := by
  constructor
  · intro h
    refine ⟨by simpa using h 0 (by simp), fun k hk => ?_⟩
    have := h (k + 1) (by simpa using hk)
    simpa [Nat.add_assoc, Nat.add_comm 1] using this
  · rintro ⟨h0, h1⟩ k hk
    cases k with
    | zero => simp [h0]
    | succ k =>
      have := h1 k (by simpa using hk)
      simpa [Nat.add_assoc, Nat.add_comm 1] using this

theorem holds_append {s : State} {a : Nat} {xs ys : List Byte} :
    Holds s a (xs ++ ys) ↔ Holds s a xs ∧ Holds s (a + xs.length) ys := by
  induction xs generalizing a with
  | nil => simp [holds_nil]
  | cons x xs ih =>
    simp only [List.cons_append, holds_cons, ih, List.length_cons, and_assoc]
    rw [show a + 1 + xs.length = a + (xs.length + 1) by omega]

theorem holds_memRead {s : State} {a n v : Nat} (h : Holds s a (leBytes n v)) (hv : v < 256 ^ n) :
    s.memRead a n = v :=
  State.memRead_of_leBytes hv fun i hi => h i (by simpa using hi)

theorem holds_memBytes {s : State} {a : Nat} {bs : List Byte} (h : Holds s a bs) : s.memBytes a bs.length = bs := by
  induction bs generalizing a with
  | nil => rfl
  | cons b bs ih =>
    rw [holds_cons] at h
    rw [List.length_cons, State.memBytes, h.1, ih h.2]

theorem holds_congr {s t : State} {a : Nat} {bs : List Byte} (h : Holds s a bs)
    (e : ∀ k, k < bs.length → t.byte (a + k) = s.byte (a + k)) : Holds t a bs := fun k hk => by
  rw [e k hk]; exact h k hk

theorem holds_emitted (s : State) (bs : List Byte) : Holds (s.emitted bs) s.cur.toNat bs :=
  emitted_byte_inside s bs

end Sys2Proof.Machine
end

