-- ==== Sys2Proof/Laws/Ack.lean ====
section
/-! SUPPORT. What the pieces of `ack_parse` answer (43_ack.md R176), and what they depend on. -/

namespace Sys2Proof.Machine

/-- The pairs answered are within LEN, at most one range per pair, and every range is nonempty, below `pf` and above 0. -/
theorem ackPairs_ok {s : State} {abw count p acc pf : Nat} {rs : List AckRange} {q : Nat}
    (h : ackPairs s abw count p acc pf = .ok (rs, q)) :
    q = p + count * (1 + abw) ∧ (p ≤ s.len.toNat → q ≤ s.len.toNat) ∧ rs.length ≤ count ∧
      ∀ r ∈ rs, 1 ≤ r.first ∧ r.first ≤ r.last ∧ r.last < pf := by
  induction count generalizing p acc pf rs q with
  | zero => simp only [ackPairs, Except.ok.injEq, Prod.mk.injEq] at h; obtain ⟨rfl, rfl⟩ := h; simp
  | succ count ih =>
    simp only [ackPairs] at h
    have hm : (count + 1) * (1 + abw) = count * (1 + abw) + (1 + abw) := Nat.succ_mul _ _
    split at h
    · cases h
    · rename_i hs
      split at h
      · obtain ⟨h1, h2, h3, h4⟩ := ih h
        exact ⟨by omega, fun _ => h2 (by omega), by omega, h4⟩
      · rename_i hr
        split at h
        · cases h
        · rename_i hp
          split at h
          · cases h
          · rename_i rs' q' he
            simp only [Except.ok.injEq, Prod.mk.injEq] at h
            obtain ⟨rfl, rfl⟩ := h
            obtain ⟨h1, h2, h3, h4⟩ := ih he
            refine ⟨by omega, fun _ => h2 (by omega), by simpa using h3, fun r hmem => ?_⟩
            rcases List.mem_cons.1 hmem with rfl | hmem
            · exact ⟨by simp only; omega, by simp only; omega, by simp only; omega⟩
            · obtain ⟨a, b, c⟩ := h4 r hmem
              exact ⟨a, b, by omega⟩

/-- The timestamp section lies below LEN. -/
theorem ackTimestamps_ok {s : State} {p q : Nat} (h : ackTimestamps s p = .ok q) :
    q = p + 1 + timestampBytes (s.byte p).toNat ∧ q ≤ s.len.toNat := by
  simp only [ackTimestamps] at h
  split at h
  · cases h
  · split at h
    · cases h
    · cases h; exact ⟨rfl, by omega⟩

/-- `first` of the last range of a list that begins with `r`. -/
theorem lastFirst_mem (r : AckRange) (rs : List AckRange) : ∃ x ∈ r :: rs, lastFirst r rs = x.first := by
  induction rs generalizing r with
  | nil => exact ⟨r, by simp, rfl⟩
  | cons q rs ih => obtain ⟨x, hx, e⟩ := ih q; exact ⟨x, by simp at hx ⊢; tauto, e⟩

theorem lastFirst_getLast (r : AckRange) (rs : List AckRange) :
    (r :: rs)[rs.length]? = some ((r :: rs).getLast (by simp)) ∧
      ((r :: rs).getLast (by simp)).first = lastFirst r rs := by
  induction rs generalizing r with
  | nil => simp [lastFirst]
  | cons q rs ih => simpa [lastFirst] using ih q

/-- What holds of an answer of `ack_parse`: it lies below LEN, has at most 256 ranges, a valid list, and no packet
number below 1. -/
structure AckFrame.Good (s : State) (p : Nat) (a : AckFrame) : Prop where
  next : p < a.next ∧ a.next ≤ s.len.toNat
  count : a.ranges.length ≤ 256
  valid : ackValid a.largest a.ranges = true
  bounds : ∀ r ∈ a.ranges, 1 ≤ r.first ∧ r.first ≤ r.last ∧ r.last ≤ a.largest
  lowest : 1 ≤ a.lowest ∧ a.lowest ≤ a.largest
  last : ∀ r, a.ranges[a.ranges.length - 1]? = some r → a.lowest = r.first

theorem ackBlocks_ok {s : State} {L dc : Nat} {n : Bool} {abw count p : Nat} {a : AckFrame} (hc : count ≤ 255)
    (h : ackBlocks s L dc n abw count p = .ok a) :
    AckFrame.Good s p a ∧ a.largest = L ∧ a.delay = uf16Dec dc := by
  simp only [ackBlocks] at h
  split at h
  · cases h
  · rename_i hs
    split at h
    · cases h
    · rename_i hfb
      split at h
      · cases h
      · rename_i rest q hp
        obtain ⟨h1, h2, h3, h4⟩ := ackPairs_ok hp
        have hq := Nat.zero_le (count * (1 + abw))
        split at h
        · cases h
        · rename_i next ht
          obtain ⟨h5, h6⟩ := ackTimestamps_ok ht
          split at h
          · cases h
            refine ⟨⟨⟨by simp only; omega, h6⟩, by simp, rfl, by simp, ⟨by simp only; omega, by simp only; omega⟩,
              by simp⟩, rfl, rfl⟩
          · split at h
            · cases h
            · rename_i hv
              cases h
              have hall : ∀ r ∈ (⟨L - s.memRead p abw + 1, L⟩ : AckRange) :: rest,
                  1 ≤ r.first ∧ r.first ≤ r.last ∧ r.last ≤ L := by
                intro r hr
                rcases List.mem_cons.1 hr with rfl | hr
                · exact ⟨by simp only; omega, by simp only; omega, by simp only; omega⟩
                · obtain ⟨x, y, z⟩ := h4 r hr
                  exact ⟨x, y, by omega⟩
              obtain ⟨x, hx, e⟩ := lastFirst_mem ⟨L - s.memRead p abw + 1, L⟩ rest
              have hb := hall x hx
              refine ⟨⟨⟨by simp only; omega, h6⟩, by simp only [List.length_cons]; omega, by simpa using hv, hall,
                ⟨by simp only; omega, by simp only; omega⟩, ?_⟩, rfl, rfl⟩
              intro r hr
              obtain ⟨g1, g2⟩ := lastFirst_getLast ⟨L - s.memRead p abw + 1, L⟩ rest
              simp only [List.length_cons, Nat.add_sub_cancel] at hr
              rw [g1] at hr
              cases hr
              exact g2.symm

theorem ackParse_ok {s : State} {p : Nat} {a : AckFrame} (h : ackParse s p = .ok a) :
    AckFrame.Good s p a ∧ a.largest < 2 ^ 48 := by
  have hw : ∀ c, pnOfCode c ≤ 6 := fun c => by unfold pnOfCode; split <;> omega
  simp only [ackParse] at h
  repeat' split at h
  all_goals first | cases h | skip
  all_goals
    obtain ⟨g, hL, -⟩ := ackBlocks_ok (by omega) h
    refine ⟨⟨⟨by have := g.next.1; omega, g.next.2⟩, g.count, g.valid, g.bounds, g.lowest, g.last⟩, ?_⟩
    rw [hL]
    refine lt_of_lt_of_le (State.memRead_lt _ _ _) ?_
    exact le_trans (Nat.pow_le_pow_right (by norm_num) (hw _)) (by norm_num)

/-- `ack_parse` reads nothing but BUF below LEN. -/
theorem ackPairs_congr {s t : State} (hl : t.len = s.len) (hb : ∀ a, t.byte a = s.byte a) (abw count p acc pf : Nat) :
    ackPairs t abw count p acc pf = ackPairs s abw count p acc pf := by
  have hr : ∀ a n, t.memRead a n = s.memRead a n := fun a n => State.memRead_congr fun i _ => hb _
  induction count generalizing p acc pf with
  | zero => rfl
  | succ count ih => simp only [ackPairs, State.short, hl, hb, hr, ih]

theorem ackParse_congr {s t : State} (hl : t.len = s.len) (hb : ∀ a, t.byte a = s.byte a) (p : Nat) :
    ackParse t p = ackParse s p := by
  have hr : ∀ a n, t.memRead a n = s.memRead a n := fun a n => State.memRead_congr fun i _ => hb _
  simp only [ackParse, ackBlocks, ackTimestamps, State.short, hl, hb, hr, ackPairs_congr hl hb]

theorem storeRanges_outside (rs : List AckRange) (s : State) (i k : Nat) (h : k < i ∨ i + rs.length ≤ k) :
    (storeRanges s i rs).rangeFirstAt k = s.rangeFirstAt k ∧ (storeRanges s i rs).rangeLastAt k = s.rangeLastAt k := by
  induction rs generalizing s i with
  | nil => exact ⟨rfl, rfl⟩
  | cons r rs ih =>
    simp only [List.length_cons] at h
    obtain ⟨h1, h2⟩ := ih
      { s with
        rangeFirst := tableSet s.rangeFirst i (BitVec.ofNat 48 r.first)
        rangeLast := tableSet s.rangeLast i (BitVec.ofNat 48 r.last) } (i + 1) (by omega)
    rw [storeRanges, h1, h2]
    simp only [State.rangeFirstAt, State.rangeLastAt, tableGet_tableSet, if_neg (show ¬k = i by omega), and_self]

theorem storeRanges_inside (rs : List AckRange) (s : State) (i j : Nat) (r : AckRange) (h : rs[j]? = some r) :
    (storeRanges s i rs).rangeFirstAt (i + j) = BitVec.ofNat 48 r.first ∧
      (storeRanges s i rs).rangeLastAt (i + j) = BitVec.ofNat 48 r.last := by
  induction rs generalizing s i j with
  | nil => simp at h
  | cons q rs ih =>
    rw [storeRanges]
    cases j with
    | zero =>
      cases h
      obtain ⟨h1, h2⟩ := storeRanges_outside rs
        { s with
          rangeFirst := tableSet s.rangeFirst i (BitVec.ofNat 48 r.first)
          rangeLast := tableSet s.rangeLast i (BitVec.ofNat 48 r.last) } (i + 1) i (by omega)
      refine ⟨h1.trans ?_, h2.trans ?_⟩
      all_goals simp [State.rangeFirstAt, State.rangeLastAt, tableGet_tableSet]
    | succ j => rw [show i + (j + 1) = i + 1 + j by omega]; exact ih _ _ _ h

/-- Ranges stored below MAX_RANGES keep the canonical form of the table. -/
theorem storeRanges_wf {size : Nat} (rs : List AckRange) {s : State} {i : Nat} (h : i + rs.length ≤ size)
    (hf : RangeColumn.wf size s.rangeFirst = true) (hl : RangeColumn.wf size s.rangeLast = true) :
    RangeColumn.wf size (storeRanges s i rs).rangeFirst = true ∧
      RangeColumn.wf size (storeRanges s i rs).rangeLast = true := by
  induction rs generalizing s i with
  | nil => exact ⟨hf, hl⟩
  | cons r rs ih =>
    simp only [List.length_cons] at h
    exact ih (by omega) (tableSorted_tableSet (by omega) _ (Nat.zero_le _) hf)
      (tableSorted_tableSet (by omega) _ (Nat.zero_le _) hl)

end Sys2Proof.Machine
end

