-- ==== Sys2Proof/Laws/Exec.lean ====
section
/-! SUPPORT. Every instruction in READY mode is one rule, settled: the rule of each instruction as a function of the
state, and what all rules leave alone. -/

namespace Sys2Proof.Machine

/-- The rule of a frame type byte. -/
def frameRule (b : FrameByte) (s : State) : Except FaultCode State :=
  match b with
  | .padding => .ok (classified (frameTypeByte b) { kind := 0 } s)
  | .rstStream => .ok (classified (frameTypeByte b) { kind := 1 } s)
  | .connectionClose => .ok (classified (frameTypeByte b) { kind := 2 } s)
  | .goaway => .ok (classified (frameTypeByte b) { kind := 3 } s)
  | .windowUpdate => .ok (classified (frameTypeByte b) { kind := 4 } s)
  | .blocked => .ok (classified (frameTypeByte b) { kind := 5 } s)
  | .stopWaiting => .ok (classified (frameTypeByte b) { kind := 6 } s)
  | .ping => .ok (classified (frameTypeByte b) { kind := 7 } s)
  | .congestionFeedback _ => .ok (classified (frameTypeByte b) { kind := 8 } s)
  | .ack n ll _ mm => .ok (classified (frameTypeByte b) (ackFields n ll mm) s)
  | .stream f d ooo ss =>
    if ooo = 7#3 then .error .badWidth else .ok (classified (frameTypeByte b) (streamFields f d ooo ss) s)

/-- The rule of FT_DEC. -/
def frameDecodeRule (s : State) : Except FaultCode State :=
  if s.short s.cur.toNat 1 then .error .shortBuffer
  else
    match decodeFrameByte (s.byte s.cur.toNat) with
    | .error _ => .error .badFrameType
    | .ok b => frameRule b s

/-- The rule of a public flags byte. -/
def flagsRule (b : FlagsByte) (s : State) : Except FaultCode State :=
  match b with
  | .reset _ _ _ => parseVariant (publicFlagsByte b) parseReset s
  | .negotiation _ _ => parseVariant (publicFlagsByte b) parseNegotiation s
  | .regular v n pp => parseVariant (publicFlagsByte b) (parseRegular v n pp) s

/-- The rule of PKT_PARSE. -/
def packetParseRule (sb : Role) (s : State) : Except FaultCode State :=
  if s.short s.cur.toNat 1 then .error .shortBuffer
  else
    match decodeFlagsByte sb (s.byte s.cur.toNat) with
    | .error _ => .error .badFlags
    | .ok b => flagsRule b s

/-- The rule of each instruction in READY mode, after CMD is written. -/
def rule (i : Instr) : State → Except FaultCode State :=
  match i with
  | .faultAck => fun s => .ok s
  | .pnWidth => intWidth 1 Config.pnMax pnWidth pnCode
  | .pnC2w => codeToWidth 3 pnOfCode
  | .pnDec => intDecode pnWidths 1
  | .pnEnc => intEncode 1 Config.pnMax pnWidth pnCode
  | .pnNext => pnSuccessor
  | .sidWidth => intWidth 0 Config.sidMax sidWidth sidCode
  | .sidC2w => codeToWidth 3 sidOfCode
  | .sidDec => intDecode sidWidths 0
  | .sidEnc => intEncode 0 Config.sidMax sidWidth sidCode
  | .sidNext => sidSuccessor
  | .offWidth => intWidth 0 Config.offMax offWidth offCode
  | .offC2w => codeToWidth 6 offOfCode
  | .offDec => intDecode offWidths 0
  | .offEnc => intEncode 0 Config.offMax offWidth offCode
  | .uf16Dec => fun s => .ok { s with val := BitVec.ofNat 64 (uf16Dec (field s.val 15 0)) }
  | .uf16Enc => fun s => .ok { s with val := BitVec.ofNat 64 (uf16Enc s.val.toNat) }
  | .ftDec => frameDecodeRule
  | .ftEnc => frameEncode
  | .ackValidate => fun s => .ok { s with cond := condOf (ackValid s.largest.toNat s.ranges) }
  | .ackAcks => fun s => .ok { s with cond := condOf (ackAcks s s.val.toNat) }
  | .ackDec => ackDecode
  | .ackEnc => ackEncode
  | .pktParse sb => packetParseRule sb
  | .pktSerReg sb => serializeRegular sb
  | .pktSerRst => serializeReset
  | .pktSerNeg => serializeNegotiation
  | .verChoose => chooseVersion
  | .ftPadding => frameRule .padding
  | .ftRstStream => frameRule .rstStream
  | .ftConnectionClose => frameRule .connectionClose
  | .ftGoaway => frameRule .goaway
  | .ftWindowUpdate => frameRule .windowUpdate
  | .ftBlocked => frameRule .blocked
  | .ftStopWaiting => frameRule .stopWaiting
  | .ftPing => frameRule .ping
  | .ftCongestionFeedback x => frameRule (.congestionFeedback x)
  | .ftAck n ll u mm => frameRule (.ack n ll u mm)
  | .ftStream f d ooo ss => frameRule (.stream f d ooo ss)
  | .pfReset v n pp => flagsRule (.reset v n pp)
  | .pfNegotiation n pp => flagsRule (.negotiation n pp)
  | .pfRegular v n pp => flagsRule (.regular v n pp)

/-- The state on which an instruction's rule runs: a command has written CMD (40_common.md R111); a byte of BUF is run
by a command that has. -/
def prepared (i : Instr) (s : State) : State :=
  match encode i with
  | .cw w => withCmd w s
  | .ft _ => s
  | .pf _ _ => s

theorem runFrameByte_eq (b : FrameByte) (s : State) (h : s.mode = .ready) : runFrameByte b s = settle (frameRule b) s := by
  cases b
  case stream f d ooo ss =>
    simp only [runFrameByte, execFtStream, wireByte_ready h, settle, frameRule]
    split <;> rfl
  all_goals
    simp [runFrameByte, execFtPadding, execFtRstStream, execFtConnectionClose, execFtGoaway, execFtWindowUpdate,
      execFtBlocked, execFtStopWaiting, execFtPing, execFtCongestionFeedback, execFtAck, wireByte_ready h, plainFrame,
      settle, frameRule]

theorem frameDecode_eq (s : State) (h : s.mode = .ready) : frameDecode s = settle frameDecodeRule s := by
  unfold frameDecode
  split
  · rw [settle_of_error (e := .shortBuffer)]
    · rfl
    · simp [frameDecodeRule, *]
  · rename_i hs
    cases hd : decodeFrameByte (s.byte s.cur.toNat) with
    | error _ => rw [settle_of_error (e := .badFrameType)] <;> simp [frameDecodeRule, hs, hd]
    | ok b =>
      simp only [runFrameByte_eq b s h]
      exact settle_congr (by simp [frameDecodeRule, hs, hd])

theorem runFlagsByte_eq (b : FlagsByte) (s : State) (h : s.mode = .ready) : runFlagsByte b s = settle (flagsRule b) s := by
  cases b <;>
    simp only [runFlagsByte, execPfReset, execPfNegotiation, execPfRegular, wireByte_ready h] <;> rfl

theorem packetParse_eq (sb : Role) (s : State) (h : s.mode = .ready) :
    packetParse sb s = settle (packetParseRule sb) s := by
  unfold packetParse
  split
  · rw [settle_of_error (e := .shortBuffer)]
    · rfl
    · simp [packetParseRule, *]
  · rename_i hs
    cases hd : decodeFlagsByte sb (s.byte s.cur.toNat) with
    | error _ => rw [settle_of_error (e := .badFlags)] <;> simp [packetParseRule, hs, hd]
    | ok b =>
      simp only [runFlagsByte_eq b s h]
      exact settle_congr (by simp [packetParseRule, hs, hd])

/-- In READY mode every instruction is its rule, settled on the state in which CMD is written. -/
theorem exec_ready (i : Instr) (s : State) (h : s.mode = .ready) : exec i s = settle (rule i) (prepared i s) := by
  cases i
  case faultAck => simp [exec, execFaultAck, h, rule, prepared, encode, settle]
  case ftDec =>
    simp only [exec, execFtDec, command_ready h]
    rw [frameDecode_eq _ (by simpa using h)]
    rfl
  case pktParse sb =>
    simp only [exec, execPktParse, command_ready h]
    rw [packetParse_eq _ _ (by simpa using h)]
    rfl
  case ftStream f d ooo ss => exact runFrameByte_eq (.stream f d ooo ss) s h
  case ftAck n ll u mm => exact runFrameByte_eq (.ack n ll u mm) s h
  case ftCongestionFeedback x => exact runFrameByte_eq (.congestionFeedback x) s h
  case ftPadding => exact runFrameByte_eq .padding s h
  case ftRstStream => exact runFrameByte_eq .rstStream s h
  case ftConnectionClose => exact runFrameByte_eq .connectionClose s h
  case ftGoaway => exact runFrameByte_eq .goaway s h
  case ftWindowUpdate => exact runFrameByte_eq .windowUpdate s h
  case ftBlocked => exact runFrameByte_eq .blocked s h
  case ftStopWaiting => exact runFrameByte_eq .stopWaiting s h
  case ftPing => exact runFrameByte_eq .ping s h
  case pfReset v n pp => exact runFlagsByte_eq (.reset v n pp) s h
  case pfNegotiation n pp => exact runFlagsByte_eq (.negotiation n pp) s h
  case pfRegular v n pp => exact runFlagsByte_eq (.regular v n pp) s h
  case uf16Dec => simp only [exec, execUf16Dec, command_ready h]; rfl
  case uf16Enc => simp only [exec, execUf16Enc, command_ready h]; rfl
  case ackValidate => simp only [exec, execAckValidate, command_ready h]; rfl
  case ackAcks => simp only [exec, execAckAcks, command_ready h]; rfl
  all_goals exact command_ready h

/-- In FAULTED mode an instruction other than FAULT_ACK does nothing (40_common.md R111, 60_exceptions.md R235). -/
theorem exec_faulted (i : Instr) (s : State) (h : s.mode = .faulted) (hi : i ≠ .faultAck) : exec i s = .next s := by
  cases i
  case faultAck => exact absurd rfl hi
  case uf16Dec => simp only [exec, execUf16Dec, command_faulted h]
  case uf16Enc => simp only [exec, execUf16Enc, command_faulted h]
  case ackValidate => simp only [exec, execAckValidate, command_faulted h]
  case ackAcks => simp only [exec, execAckAcks, command_faulted h]
  case ftStream => simp only [exec, execFtStream, wireByte_faulted h]
  case ftAck => simp only [exec, execFtAck, wireByte_faulted h]
  case ftCongestionFeedback => exact wireByte_faulted h
  case ftPadding => exact wireByte_faulted h
  case ftRstStream => exact wireByte_faulted h
  case ftConnectionClose => exact wireByte_faulted h
  case ftGoaway => exact wireByte_faulted h
  case ftWindowUpdate => exact wireByte_faulted h
  case ftBlocked => exact wireByte_faulted h
  case ftStopWaiting => exact wireByte_faulted h
  case ftPing => exact wireByte_faulted h
  case pfReset => exact wireByte_faulted h
  case pfNegotiation => exact wireByte_faulted h
  case pfRegular => exact wireByte_faulted h
  all_goals exact command_faulted h

/-- What no rule of any instruction writes: mode, fault code and command word (the issue and fault procedures do), the
window index, the version set, the parameters and the host's side. -/
structure RuleKeeps (s t : State) : Prop where
  mode : t.mode = s.mode
  err : t.err = s.err
  cmd : t.cmd = s.cmd
  ridx : t.ridx = s.ridx
  supven : t.supven = s.supven
  supv : t.supv = s.supv
  cfg : t.cfg = s.cfg
  epoch : t.epoch = s.epoch
  pending : t.pending = s.pending
  answer : t.answer = s.answer

/-- The only thing `storeRanges` writes is the two columns of RANGE. -/
theorem storeRanges_eq (rs : List AckRange) (s : State) (i : Nat) :
    storeRanges s i rs =
      { s with rangeFirst := (storeRanges s i rs).rangeFirst, rangeLast := (storeRanges s i rs).rangeLast } := by
  induction rs generalizing s i with
  | nil => rfl
  | cons r rs ih => rw [storeRanges, ih]

theorem frameRule_ok {b : FrameByte} {s t : State} (h : frameRule b s = .ok t) :
    ∃ r, t = classified (frameTypeByte b) r s := by
  cases b
  case stream f d ooo ss =>
    simp only [frameRule] at h
    split at h
    · cases h
    · cases h; exact ⟨_, rfl⟩
  all_goals (simp only [frameRule, Except.ok.injEq] at h; exact ⟨_, h.symm⟩)

theorem frameDecodeRule_ok {s t : State} (h : frameDecodeRule s = .ok t) :
    s.cur.toNat + 1 ≤ s.len.toNat ∧
      ∃ b, decodeFrameByte (s.byte s.cur.toNat) = .ok b ∧ ∃ r, t = classified (frameTypeByte b) r s := by
  unfold frameDecodeRule at h
  split at h
  · cases h
  · rename_i hs
    cases hd : decodeFrameByte (s.byte s.cur.toNat) with
    | error _ => simp [hd] at h
    | ok b => exact ⟨by omega, b, rfl, frameRule_ok (by simpa [hd] using h)⟩

/-- A successful parse loads one packet whose fields stand in BUF from the cursor on. -/
theorem parseVariant_ok {f : Byte} {variant : State → Nat → Except FaultCode Parsed} {s t : State}
    (h : parseVariant f variant s = .ok t) :
    s.cur.toNat + 9 ≤ s.len.toNat ∧ ∃ p, variant s (s.cur.toNat + 9) = .ok p ∧
      t = loadPacket f (s.memRead (s.cur.toNat + 1) 8) p s := by
  simp only [parseVariant] at h
  split at h
  · cases h
  · rename_i hs
    split at h
    · cases h
    · rename_i p hp; cases h; exact ⟨by omega, p, hp, rfl⟩

theorem flagsRule_ok {b : FlagsByte} {s t : State} (h : flagsRule b s = .ok t) :
    ∃ c p, t = loadPacket (publicFlagsByte b) c p s := by
  cases b <;> (obtain ⟨-, p, -, rfl⟩ := parseVariant_ok h; exact ⟨_, p, rfl⟩)

theorem packetParseRule_ok {sb : Role} {s t : State} (h : packetParseRule sb s = .ok t) :
    s.cur.toNat + 1 ≤ s.len.toNat ∧ ∃ b, decodeFlagsByte sb (s.byte s.cur.toNat) = .ok b ∧ flagsRule b s = .ok t := by
  unfold packetParseRule at h
  split at h
  · cases h
  · rename_i hs
    cases hd : decodeFlagsByte sb (s.byte s.cur.toNat) with
    | error _ => simp [hd] at h
    | ok b => exact ⟨by omega, b, rfl, by simpa [hd] using h⟩

theorem intWidth_ok {lo hi : Nat} {width code : Nat → Nat} {s t : State} (h : intWidth lo hi width code s = .ok t) :
    lo ≤ s.val.toNat ∧ s.val.toNat ≤ hi ∧ t = s.setWidth (width s.val.toNat) (code (width s.val.toNat)) := by
  simp only [intWidth] at h
  split at h
  · cases h
  · rename_i hr; cases h; exact ⟨by omega, by omega, rfl⟩

theorem codeToWidth_ok {top : Nat} {width : Nat → Nat} {s t : State} (h : codeToWidth top width s = .ok t) :
    s.code.toNat ≤ top ∧ t = { s with wid := BitVec.ofNat 4 (width s.code.toNat) } := by
  simp only [codeToWidth] at h
  split at h
  · cases h
  · cases h; exact ⟨by omega, rfl⟩

theorem intDecode_ok {ws : List Nat} {lo : Nat} {s t : State} (h : intDecode ws lo s = .ok t) :
    s.wid.toNat ∈ ws ∧ s.cur.toNat + s.wid.toNat ≤ s.len.toNat ∧ lo ≤ s.memRead s.cur.toNat s.wid.toNat ∧
      t = { s.moveTo (s.cur.toNat + s.wid.toNat) with
            val := BitVec.ofNat 64 (s.memRead s.cur.toNat s.wid.toNat) } := by
  simp only [intDecode] at h
  split at h
  · cases h
  · split at h
    · cases h
    · split at h
      · cases h
      · rename_i hw hs hl
        cases h
        exact ⟨by simpa using hw, by omega, by omega, rfl⟩

theorem intEncode_ok {lo hi : Nat} {width code : Nat → Nat} {s t : State} (h : intEncode lo hi width code s = .ok t) :
    lo ≤ s.val.toNat ∧ s.val.toNat ≤ hi ∧ s.cur.toNat + width s.val.toNat ≤ s.cfg.bufSize ∧
      t = (s.setWidth (width s.val.toNat) (code (width s.val.toNat))).emitted (leBytes (width s.val.toNat) s.val.toNat) := by
  simp only [intEncode] at h
  split at h
  · cases h
  · rename_i hr
    obtain ⟨hf, rfl⟩ := emit_ok_iff.1 h
    exact ⟨by omega, by omega, by simpa using hf, rfl⟩

theorem pnSuccessor_ok {s t : State} (h : pnSuccessor s = .ok t) : ∃ v, t = { s with val := v } := by
  simp only [pnSuccessor] at h
  split at h
  · cases h
  · split at h <;> (cases h; exact ⟨_, rfl⟩)

theorem sidSuccessor_ok {s t : State} (h : sidSuccessor s = .ok t) : ∃ v, t = { s with val := v } := by
  simp only [sidSuccessor] at h
  split at h
  · cases h
  · split at h
    · cases h
    · cases h; exact ⟨_, rfl⟩

theorem frameEncode_ok {s t : State} (h : frameEncode s = .ok t) :
    ∃ b, ftCompose s.finfo = .ok b ∧ s.cur.toNat + 1 ≤ s.cfg.bufSize ∧ t = ({ s with tb := b } : State).emitted [b] := by
  simp only [frameEncode] at h
  split at h
  · cases h
  · rename_i b hb
    obtain ⟨hf, rfl⟩ := emit_ok_iff.1 h
    exact ⟨b, hb, by simpa using hf, rfl⟩

theorem ackDecode_ok {s t : State} (h : ackDecode s = .ok t) :
    ∃ a, ackParse s s.cur.toNat = .ok a ∧
      t = { (storeRanges s 0 a.ranges).moveTo a.next with
            largest := BitVec.ofNat 48 a.largest
            lowest := BitVec.ofNat 48 a.lowest
            delay := BitVec.ofNat 64 a.delay
            nranges := BitVec.ofNat 16 a.ranges.length } := by
  simp only [ackDecode] at h
  split at h
  · cases h
  · rename_i a ha; cases h; exact ⟨a, ha, rfl⟩

theorem ackEncode_ok {s t : State} (h : ackEncode s = .ok t) :
    ∃ a, ackPlan s = .ok a ∧
      s.cur.toNat + (ackFrameBytes s.largest.toNat s.delay.toNat a).length ≤ s.cfg.bufSize ∧
      t = ({ s with aemit := BitVec.ofNat 16 a.emitted } : State).emitted
            (ackFrameBytes s.largest.toNat s.delay.toNat a) := by
  simp only [ackEncode] at h
  split at h
  · cases h
  · rename_i a ha
    obtain ⟨hf, rfl⟩ := emit_ok_iff.1 h
    exact ⟨a, ha, hf, rfl⟩

theorem serializeRegular_ok {sb : Role} {s t : State} (h : serializeRegular sb s = .ok t) :
    ∃ f w bs, s.cur.toNat + bs.length ≤ s.cfg.bufSize ∧ t = (s.built f 0 w).emitted bs := by
  simp only [serializeRegular] at h
  split at h
  · cases h
  · split at h
    · cases h
    · obtain ⟨hf, rfl⟩ := emit_ok_iff.1 h
      exact ⟨_, _, _, hf, rfl⟩

theorem serializeReset_ok {s t : State} (h : serializeReset s = .ok t) :
    ∃ bs, s.cur.toNat + bs.length ≤ s.cfg.bufSize ∧ t = (s.built 0x0A 1 8).emitted bs := by
  simp only [serializeReset] at h
  split at h
  · cases h
  · split at h
    · cases h
    · obtain ⟨hf, rfl⟩ := emit_ok_iff.1 h
      exact ⟨_, hf, rfl⟩

theorem serializeNegotiation_ok {s t : State} (h : serializeNegotiation s = .ok t) :
    s.cur.toNat + (negotiationBytes s).length ≤ s.cfg.bufSize ∧
      t = ({ s.built 0x09 2 0 with
              nver := BitVec.ofNat 16 s.supportedTags.length
              negoff := BitVec.ofNat 16 (s.cur.toNat + 9) } : State).emitted (negotiationBytes s) := by
  obtain ⟨hf, rfl⟩ := emit_ok_iff.1 h
  exact ⟨hf, rfl⟩

theorem chooseVersion_ok {s t : State} (h : chooseVersion s = .ok t) :
    s.negoff.toNat + 4 * s.nver.toNat ≤ s.len.toNat ∧
      t = { s with
            versel := BitVec.ofNat 32 (choose s s.offered).2
            cond := condOf (choose s s.offered).1 } := by
  simp only [chooseVersion] at h
  split at h
  · cases h
  · cases h; exact ⟨by omega, rfl⟩

/-- No rule of any instruction writes what `RuleKeeps` lists. -/
theorem rule_keeps {i : Instr} {s t : State} (h : rule i s = .ok t) : RuleKeeps s t := by
  cases i
  case faultAck => cases h; constructor <;> rfl
  case pnWidth => obtain ⟨-, -, rfl⟩ := intWidth_ok h; constructor <;> rfl
  case pnC2w => obtain ⟨-, rfl⟩ := codeToWidth_ok h; constructor <;> rfl
  case pnDec => obtain ⟨-, -, -, rfl⟩ := intDecode_ok h; constructor <;> rfl
  case pnEnc => obtain ⟨-, -, -, rfl⟩ := intEncode_ok h; constructor <;> rfl
  case pnNext => obtain ⟨_, rfl⟩ := pnSuccessor_ok h; constructor <;> rfl
  case sidWidth => obtain ⟨-, -, rfl⟩ := intWidth_ok h; constructor <;> rfl
  case sidC2w => obtain ⟨-, rfl⟩ := codeToWidth_ok h; constructor <;> rfl
  case sidDec => obtain ⟨-, -, -, rfl⟩ := intDecode_ok h; constructor <;> rfl
  case sidEnc => obtain ⟨-, -, -, rfl⟩ := intEncode_ok h; constructor <;> rfl
  case sidNext => obtain ⟨_, rfl⟩ := sidSuccessor_ok h; constructor <;> rfl
  case offWidth => obtain ⟨-, -, rfl⟩ := intWidth_ok h; constructor <;> rfl
  case offC2w => obtain ⟨-, rfl⟩ := codeToWidth_ok h; constructor <;> rfl
  case offDec => obtain ⟨-, -, -, rfl⟩ := intDecode_ok h; constructor <;> rfl
  case offEnc => obtain ⟨-, -, -, rfl⟩ := intEncode_ok h; constructor <;> rfl
  case uf16Dec => cases h; constructor <;> rfl
  case uf16Enc => cases h; constructor <;> rfl
  case ftDec => obtain ⟨-, _, -, _, rfl⟩ := frameDecodeRule_ok h; constructor <;> rfl
  case ftEnc => obtain ⟨_, -, -, rfl⟩ := frameEncode_ok h; constructor <;> rfl
  case ackValidate => cases h; constructor <;> rfl
  case ackAcks => cases h; constructor <;> rfl
  case ackDec =>
    obtain ⟨a, -, rfl⟩ := ackDecode_ok h
    rw [storeRanges_eq]; constructor <;> rfl
  case ackEnc => obtain ⟨_, -, -, rfl⟩ := ackEncode_ok h; constructor <;> rfl
  case pktParse =>
    obtain ⟨-, _, -, hb⟩ := packetParseRule_ok h
    obtain ⟨_, _, rfl⟩ := flagsRule_ok hb
    constructor <;> rfl
  case pktSerReg => obtain ⟨_, _, _, -, rfl⟩ := serializeRegular_ok h; constructor <;> rfl
  case pktSerRst => obtain ⟨_, -, rfl⟩ := serializeReset_ok h; constructor <;> rfl
  case pktSerNeg => obtain ⟨-, rfl⟩ := serializeNegotiation_ok h; constructor <;> rfl
  case verChoose => obtain ⟨-, rfl⟩ := chooseVersion_ok h; constructor <;> rfl
  case pfReset => simp only [rule] at h; obtain ⟨_, _, rfl⟩ := flagsRule_ok h; constructor <;> rfl
  case pfNegotiation => simp only [rule] at h; obtain ⟨_, _, rfl⟩ := flagsRule_ok h; constructor <;> rfl
  case pfRegular => simp only [rule] at h; obtain ⟨_, _, rfl⟩ := flagsRule_ok h; constructor <;> rfl
  all_goals (simp only [rule] at h; obtain ⟨_, rfl⟩ := frameRule_ok h; constructor <;> rfl)

@[simp] theorem prepared_mode (i : Instr) (s : State) : (prepared i s).mode = s.mode := by
  unfold prepared; split <;> rfl

/-- A command written in READY mode answers a next state: its rule's writes, or one fault taken. -/
theorem exec_ready_cases {i : Instr} {s t : State} (h : s.mode = .ready) (ht : exec i s = .next t) :
    rule i (prepared i s) = .ok t ∨ ∃ e, rule i (prepared i s) = .error e ∧ t = takeFault e (prepared i s) :=
  settle_cases (by rwa [exec_ready i s h] at ht)

end Sys2Proof.Machine
end

