-- ==== Sys2Proof/Laws/Packet.lean ====
section
/-! SUPPORT. Where the packet parsers end (44_packet.md R206). -/

namespace Sys2Proof.Machine

theorem parseResetValues_ok {s : State} {v e : Nat} {ha : Bool} {p : Parsed}
    (h : parseResetValues s v e ha = .ok p) : p.next = v + e ∧ v + e ≤ s.len.toNat ∧ p.pkind = 1 := by
  simp only [parseResetValues] at h
  repeat' split at h
  all_goals cases h
  all_goals exact ⟨rfl, by omega, rfl⟩

/-- A Reset packet ends below LEN. -/
theorem parseReset_ok {s : State} {q : Nat} {p : Parsed} (h : parseReset s q = .ok p) :
    q + 64 ≤ p.next ∧ p.next ≤ s.len.toNat ∧ p.pkind = 1 := by
  simp only [parseReset] at h
  repeat' split at h
  all_goals first | cases h | skip
  all_goals
    obtain ⟨h1, h2, h3⟩ := parseResetValues_ok h
    exact ⟨by omega, by omega, h3⟩

/-- A Negotiation packet ends at LEN. -/
theorem parseNegotiation_ok {s : State} {q : Nat} {p : Parsed} (h : parseNegotiation s q = .ok p) :
    p = { pkind := 2, nver := (s.len.toNat - q) / 4, negoff := q, next := s.len.toNat } ∧
      (s.len.toNat - q) % 4 = 0 := by
  simp only [parseNegotiation] at h
  split at h
  · cases h
  · cases h; exact ⟨rfl, by omega⟩

theorem parseNumber_ok {s : State} {w a : Nat} {packet p : Parsed} (h : parseNumber s w a packet = .ok p) :
    p = { packet with pnum := s.memRead a w, pnlen := w, next := a + w } ∧ a + w ≤ s.len.toNat ∧ s.memRead a w ≠ 0 := by
  simp only [parseNumber] at h
  split at h
  · cases h
  · split at h
    · cases h
    · cases h; exact ⟨rfl, by omega, by assumption⟩

theorem parseNonce_ok {s : State} {n : Bool} {w a : Nat} {packet p : Parsed} (h : parseNonce s n w a packet = .ok p) :
    a < p.next + 1 ∧ p.next ≤ s.len.toNat ∧ p.pkind = packet.pkind := by
  simp only [parseNonce] at h
  repeat' split at h
  all_goals first | cases h | skip
  all_goals
    obtain ⟨rfl, h1, -⟩ := parseNumber_ok h
    exact ⟨by simp only; omega, h1, rfl⟩

/-- A Regular header ends below LEN. -/
theorem parseRegular_ok {s : State} {v n : Bool} {pp : BitVec 2} {q : Nat} {p : Parsed}
    (h : parseRegular v n pp s q = .ok p) : p.next ≤ s.len.toNat ∧ p.pkind = 0 := by
  simp only [parseRegular] at h
  repeat' split at h
  all_goals first | cases h | skip
  all_goals
    obtain ⟨-, h1, h2⟩ := parseNonce_ok h
    exact ⟨h1, h2⟩

end Sys2Proof.Machine
end

