-- ==== Sys2Proof/Laws/PerInstr.lean ====
section
/-! SUPPORT. Statements made once per instruction. -/

namespace Sys2Proof.Laws

/-- 30_encoding.md R81, R83: the encoding of an instruction, where it is a command word, has its reserved bits 15:9
clear, and its role bit clear unless the row carries `SB`. -/
def CommandWordReserved.Statement (i : Instr) : Prop :=
  ∀ w, encode i = .cw w →
    w.extractLsb' 9 7 = 0 ∧ (w.getLsbD 8 = true → i = .pktParse .server ∨ i = .pktSerReg .server)

theorem CommandWordReserved.faultAck : CommandWordReserved.Statement .faultAck := by
  intro w h; cases h; decide

theorem CommandWordReserved.pnWidth : CommandWordReserved.Statement .pnWidth := by
  intro w h; cases h; decide

theorem CommandWordReserved.pnC2w : CommandWordReserved.Statement .pnC2w := by
  intro w h; cases h; decide

theorem CommandWordReserved.pnDec : CommandWordReserved.Statement .pnDec := by
  intro w h; cases h; decide

theorem CommandWordReserved.pnEnc : CommandWordReserved.Statement .pnEnc := by
  intro w h; cases h; decide

theorem CommandWordReserved.pnNext : CommandWordReserved.Statement .pnNext := by
  intro w h; cases h; decide

theorem CommandWordReserved.sidWidth : CommandWordReserved.Statement .sidWidth := by
  intro w h; cases h; decide

theorem CommandWordReserved.sidC2w : CommandWordReserved.Statement .sidC2w := by
  intro w h; cases h; decide

theorem CommandWordReserved.sidDec : CommandWordReserved.Statement .sidDec := by
  intro w h; cases h; decide

theorem CommandWordReserved.sidEnc : CommandWordReserved.Statement .sidEnc := by
  intro w h; cases h; decide

theorem CommandWordReserved.sidNext : CommandWordReserved.Statement .sidNext := by
  intro w h; cases h; decide

theorem CommandWordReserved.offWidth : CommandWordReserved.Statement .offWidth := by
  intro w h; cases h; decide

theorem CommandWordReserved.offC2w : CommandWordReserved.Statement .offC2w := by
  intro w h; cases h; decide

theorem CommandWordReserved.offDec : CommandWordReserved.Statement .offDec := by
  intro w h; cases h; decide

theorem CommandWordReserved.offEnc : CommandWordReserved.Statement .offEnc := by
  intro w h; cases h; decide

theorem CommandWordReserved.uf16Dec : CommandWordReserved.Statement .uf16Dec := by
  intro w h; cases h; decide

theorem CommandWordReserved.uf16Enc : CommandWordReserved.Statement .uf16Enc := by
  intro w h; cases h; decide

theorem CommandWordReserved.ftDec : CommandWordReserved.Statement .ftDec := by
  intro w h; cases h; decide

theorem CommandWordReserved.ftEnc : CommandWordReserved.Statement .ftEnc := by
  intro w h; cases h; decide

theorem CommandWordReserved.ackValidate : CommandWordReserved.Statement .ackValidate := by
  intro w h; cases h; decide

theorem CommandWordReserved.ackAcks : CommandWordReserved.Statement .ackAcks := by
  intro w h; cases h; decide

theorem CommandWordReserved.ackDec : CommandWordReserved.Statement .ackDec := by
  intro w h; cases h; decide

theorem CommandWordReserved.ackEnc : CommandWordReserved.Statement .ackEnc := by
  intro w h; cases h; decide

theorem CommandWordReserved.pktParse (sb : Role) : CommandWordReserved.Statement (.pktParse sb) := by
  cases sb <;> (intro w h; cases h; decide)

theorem CommandWordReserved.pktSerReg (sb : Role) : CommandWordReserved.Statement (.pktSerReg sb) := by
  cases sb <;> (intro w h; cases h; decide)

theorem CommandWordReserved.pktSerRst : CommandWordReserved.Statement .pktSerRst := by
  intro w h; cases h; decide

theorem CommandWordReserved.pktSerNeg : CommandWordReserved.Statement .pktSerNeg := by
  intro w h; cases h; decide

theorem CommandWordReserved.verChoose : CommandWordReserved.Statement .verChoose := by
  intro w h; cases h; decide

theorem CommandWordReserved.ftPadding : CommandWordReserved.Statement .ftPadding := by
  intro w h; cases h

theorem CommandWordReserved.ftRstStream : CommandWordReserved.Statement .ftRstStream := by
  intro w h; cases h

theorem CommandWordReserved.ftConnectionClose : CommandWordReserved.Statement .ftConnectionClose := by
  intro w h; cases h

theorem CommandWordReserved.ftGoaway : CommandWordReserved.Statement .ftGoaway := by
  intro w h; cases h

theorem CommandWordReserved.ftWindowUpdate : CommandWordReserved.Statement .ftWindowUpdate := by
  intro w h; cases h

theorem CommandWordReserved.ftBlocked : CommandWordReserved.Statement .ftBlocked := by
  intro w h; cases h

theorem CommandWordReserved.ftStopWaiting : CommandWordReserved.Statement .ftStopWaiting := by
  intro w h; cases h

theorem CommandWordReserved.ftPing : CommandWordReserved.Statement .ftPing := by
  intro w h; cases h

theorem CommandWordReserved.ftCongestionFeedback (x : BitVec 5) : CommandWordReserved.Statement (.ftCongestionFeedback x) := by
  intro w h; cases h

theorem CommandWordReserved.ftAck (n : Bool) (ll : BitVec 2) (u : Bool) (mm : BitVec 2) : CommandWordReserved.Statement (.ftAck n ll u mm) := by
  intro w h; cases h

theorem CommandWordReserved.ftStream (f : Bool) (d : Bool) (ooo : BitVec 3) (ss : BitVec 2) : CommandWordReserved.Statement (.ftStream f d ooo ss) := by
  intro w h; cases h

theorem CommandWordReserved.pfReset (v : Bool) (n : Bool) (pp : BitVec 2) : CommandWordReserved.Statement (.pfReset v n pp) := by
  intro w h; cases h

theorem CommandWordReserved.pfNegotiation (n : Bool) (pp : BitVec 2) : CommandWordReserved.Statement (.pfNegotiation n pp) := by
  intro w h; cases h

theorem CommandWordReserved.pfRegular (v : Bool) (n : Bool) (pp : BitVec 2) : CommandWordReserved.Statement (.pfRegular v n pp) := by
  intro w h; cases h

end Sys2Proof.Laws
end

