-- ==== Sys2Proof/Laws/Step.lean ====
section
/-! SUPPORT. The step by the host's next action, and the inversion of the command decoder. -/

namespace Sys2Proof.Machine

/-- With no action to come the block is idle. -/
theorem step_idle {s : State} (h : s.pending = []) : step s = .next s := by simp [step, h]

/-- Otherwise the step performs the next action. -/
theorem step_act {s : State} {a : HostAction} {rest : List HostAction} (h : s.pending = a :: rest) :
    step s = act a { s with pending := rest } := by simp [step, h]

/-- A write to CMD issues the word. -/
theorem act_command (v : PortWord) (s : State) : act (.regWrite 0x00 v) s = issue v (withAnswer .nothing s) := rfl

/-- A write to any other index is a plain register-port write. -/
theorem act_regWrite {idx : BitVec 8} (v : PortWord) (s : State) (h : idx ≠ 0x00) :
    act (.regWrite idx v) s = .next (hostRegWrite idx v s) := if_neg h

theorem issue_of_decode {v : PortWord} {s : State} {i : Instr} (h : decodeCommand (v.setWidth 16) = .ok i) :
    issue v s = exec i s := by simp [issue, h]

theorem issue_of_illegal {v : PortWord} {s : State} {e : Illegal} (h : decodeCommand (v.setWidth 16) = .error e) :
    issue v s = illegalCommand (v.setWidth 16) s := by simp [issue, h]

/-- A decoded word matches a row of the opcode map (30_encoding.md R82). -/
theorem decodeCommand_ok {w : CommandWord} {i : Instr} (h : decodeCommand w = .ok i) :
    ∃ r ∈ commandTable, w &&& r.mask = r.pattern ∧ i = r.build (roleOfWord w) := by
  simp only [decodeCommand] at h
  split at h
  · rename_i r hr
    cases h
    exact ⟨r, List.mem_of_find?_eq_some hr, by simpa using List.find?_some hr, rfl⟩
  · cases h

/-- A refused word matches no row (R83). -/
theorem decodeCommand_error {w : CommandWord} {e : Illegal} (h : decodeCommand w = .error e) :
    ∀ r ∈ commandTable, w &&& r.mask ≠ r.pattern := by
  simp only [decodeCommand] at h
  split at h
  · cases h
  · rename_i hr
    intro r hm
    simpa using List.find?_eq_none.1 hr r hm

end Sys2Proof.Machine
end

