-- ==== Sys2Proof/Laws/Vli.lean ====
section
/-! SUPPORT. What the shared rules of the integer unit answer, one lemma per outcome. -/

namespace Sys2Proof.Machine

theorem emit_fits {bs : List Byte} {s : State} (h : s.cur.toNat + bs.length ≤ s.cfg.bufSize) :
    emit bs s = .ok (s.emitted bs) := emit_ok_iff.2 ⟨h, rfl⟩

theorem emit_full {bs : List Byte} {s : State} (h : s.cfg.bufSize < s.cur.toNat + bs.length) :
    emit bs s = .error .noSpace := emit_error_iff.2 ⟨h, rfl⟩

section

variable {lo hi top : Nat} {width code : Nat → Nat} {ws : List Nat} {s : State}

theorem intWidth_out (h : s.val.toNat < lo ∨ hi < s.val.toNat) : intWidth lo hi width code s = .error .valueRange :=
  if_pos h

theorem intWidth_in (h : lo ≤ s.val.toNat ∧ s.val.toNat ≤ hi) :
    intWidth lo hi width code s = .ok (s.setWidth (width s.val.toNat) (code (width s.val.toNat))) :=
  if_neg (by omega)

theorem codeToWidth_out (h : top < s.code.toNat) : codeToWidth top width s = .error .badWidth := if_pos h

theorem codeToWidth_in (h : s.code.toNat ≤ top) :
    codeToWidth top width s = .ok { s with wid := BitVec.ofNat 4 (width s.code.toNat) } := if_neg (by omega)

theorem intDecode_badWidth (h : s.wid.toNat ∉ ws) : intDecode ws lo s = .error .badWidth := if_pos h

theorem intDecode_short (h : s.wid.toNat ∈ ws) (hs : s.short s.cur.toNat s.wid.toNat) :
    intDecode ws lo s = .error .shortBuffer := (if_neg (by simpa using h)).trans (if_pos hs)

theorem intDecode_low (h : s.wid.toNat ∈ ws) (hs : ¬s.short s.cur.toNat s.wid.toNat)
    (hv : s.memRead s.cur.toNat s.wid.toNat < lo) : intDecode ws lo s = .error .valueRange :=
  ((if_neg (by simpa using h)).trans (if_neg hs)).trans (if_pos hv)

theorem intDecode_in (h : s.wid.toNat ∈ ws) (hs : ¬s.short s.cur.toNat s.wid.toNat)
    (hv : lo ≤ s.memRead s.cur.toNat s.wid.toNat) :
    intDecode ws lo s = .ok { s.moveTo (s.cur.toNat + s.wid.toNat) with
      val := BitVec.ofNat 64 (s.memRead s.cur.toNat s.wid.toNat) } :=
  ((if_neg (by simpa using h)).trans (if_neg hs)).trans (if_neg (by omega))

theorem intEncode_out (h : s.val.toNat < lo ∨ hi < s.val.toNat) : intEncode lo hi width code s = .error .valueRange :=
  if_pos h

theorem intEncode_full (h : lo ≤ s.val.toNat ∧ s.val.toNat ≤ hi)
    (hf : s.cfg.bufSize < s.cur.toNat + width s.val.toNat) : intEncode lo hi width code s = .error .noSpace :=
  (if_neg (by omega)).trans (emit_full (by rw [leBytes_length]; exact hf))

theorem intEncode_in (h : lo ≤ s.val.toNat ∧ s.val.toNat ≤ hi)
    (hf : s.cur.toNat + width s.val.toNat ≤ s.cfg.bufSize) :
    intEncode lo hi width code s =
      .ok ((s.setWidth (width s.val.toNat) (code (width s.val.toNat))).emitted
        (leBytes (width s.val.toNat) s.val.toNat)) :=
  (if_neg (by omega)).trans (emit_fits (by rw [leBytes_length]; exact hf))

end

end Sys2Proof.Machine
end

