-- ==== Sys2Proof/Tests/Slice0.lean ====
section
/-! SUPPORT. The model's own tests: words written out from the spec's encodings, single steps with the results of
spec/95_test_vectors.md (named in the comment of each), and for each statement a state that meets its hypotheses. -/

open Sys2Proof Sys2Proof.Machine

namespace Sys2Proof.Tests

/-! ## WellFormed -/

theorem test_stream_offset_code_seven_is_ill_formed : (Instr.ftStream false true 7 0).wellFormed = false := by decide
theorem test_stream_offset_code_six_is_well_formed : (Instr.ftStream false true 6 0).wellFormed = true := by decide

/-! ## Decode: one word of every row, written out from 30_encoding.md R82, R84, R85, R87 -/

theorem test_decode_faultAck : decode (.cw 0b0000000000000001) = .ok .faultAck := by decide
theorem test_decode_pnWidth : decode (.cw 0b0000000000010000) = .ok .pnWidth := by decide
theorem test_decode_pnC2w : decode (.cw 0b0000000000010001) = .ok .pnC2w := by decide
theorem test_decode_pnDec : decode (.cw 0b0000000000010010) = .ok .pnDec := by decide
theorem test_decode_pnEnc : decode (.cw 0b0000000000010011) = .ok .pnEnc := by decide
theorem test_decode_pnNext : decode (.cw 0b0000000000010100) = .ok .pnNext := by decide
theorem test_decode_sidWidth : decode (.cw 0b0000000000011000) = .ok .sidWidth := by decide
theorem test_decode_sidC2w : decode (.cw 0b0000000000011001) = .ok .sidC2w := by decide
theorem test_decode_sidDec : decode (.cw 0b0000000000011010) = .ok .sidDec := by decide
theorem test_decode_sidEnc : decode (.cw 0b0000000000011011) = .ok .sidEnc := by decide
theorem test_decode_sidNext : decode (.cw 0b0000000000011100) = .ok .sidNext := by decide
theorem test_decode_offWidth : decode (.cw 0b0000000000100000) = .ok .offWidth := by decide
theorem test_decode_offC2w : decode (.cw 0b0000000000100001) = .ok .offC2w := by decide
theorem test_decode_offDec : decode (.cw 0b0000000000100010) = .ok .offDec := by decide
theorem test_decode_offEnc : decode (.cw 0b0000000000100011) = .ok .offEnc := by decide
theorem test_decode_uf16Dec : decode (.cw 0b0000000000101000) = .ok .uf16Dec := by decide
theorem test_decode_uf16Enc : decode (.cw 0b0000000000101001) = .ok .uf16Enc := by decide
theorem test_decode_ftDec : decode (.cw 0b0000000000110000) = .ok .ftDec := by decide
theorem test_decode_ftEnc : decode (.cw 0b0000000000110001) = .ok .ftEnc := by decide
theorem test_decode_ackValidate : decode (.cw 0b0000000001000000) = .ok .ackValidate := by decide
theorem test_decode_ackAcks : decode (.cw 0b0000000001000001) = .ok .ackAcks := by decide
theorem test_decode_ackDec : decode (.cw 0b0000000001000010) = .ok .ackDec := by decide
theorem test_decode_ackEnc : decode (.cw 0b0000000001000011) = .ok .ackEnc := by decide
theorem test_decode_pktSerRst : decode (.cw 0b0000000001010010) = .ok .pktSerRst := by decide
theorem test_decode_pktSerNeg : decode (.cw 0b0000000001010011) = .ok .pktSerNeg := by decide
theorem test_decode_verChoose : decode (.cw 0b0000000001010100) = .ok .verChoose := by decide
theorem test_decode_pktParse : decode (.cw 0b0000000101010000) = .ok (.pktParse .server) := by decide
theorem test_decode_pktSerReg : decode (.cw 0b0000000001010001) = .ok (.pktSerReg .client) := by decide
theorem test_decode_ftPadding : decode (.ft 0b00000000) = .ok .ftPadding := by decide
theorem test_decode_ftRstStream : decode (.ft 0b00000001) = .ok .ftRstStream := by decide
theorem test_decode_ftConnectionClose : decode (.ft 0b00000010) = .ok .ftConnectionClose := by decide
theorem test_decode_ftGoaway : decode (.ft 0b00000011) = .ok .ftGoaway := by decide
theorem test_decode_ftWindowUpdate : decode (.ft 0b00000100) = .ok .ftWindowUpdate := by decide
theorem test_decode_ftBlocked : decode (.ft 0b00000101) = .ok .ftBlocked := by decide
theorem test_decode_ftStopWaiting : decode (.ft 0b00000110) = .ok .ftStopWaiting := by decide
theorem test_decode_ftPing : decode (.ft 0b00000111) = .ok .ftPing := by decide
theorem test_decode_ftCongestionFeedback : decode (.ft 0b00110110) = .ok (.ftCongestionFeedback 0b10110) := by decide
theorem test_decode_ftAck : decode (.ft 0b01110101) = .ok (.ftAck true 0b10 true 0b01) := by decide
theorem test_decode_ftStream : decode (.ft 0b11001110) = .ok (.ftStream true false 0b011 0b10) := by decide
theorem test_decode_pfReset : decode (.pf .server 0b00101011) = .ok (.pfReset true false 0b10) := by decide
theorem test_decode_pfNegotiation : decode (.pf .server 0b00011101) = .ok (.pfNegotiation true 0b01) := by decide
theorem test_decode_pfRegular : decode (.pf .client 0b00111101) = .ok (.pfRegular true true 0b11) := by decide

/-- No two rows of the opcode map share a word. -/
theorem test_rows_disjoint :
    commandTable.Pairwise fun a b => (a.pattern ^^^ b.pattern) &&& (a.mask &&& b.mask) ≠ 0 := by decide

theorem test_illegal_opcode : decode (.cw 0x0055) = .error .unassignedOpcode := by decide
theorem test_illegal_role : decode (.cw 0x0152) = .error .strayRole := by decide
theorem test_illegal_high_bits : decode (.cw 0x0250) = .error .reservedBits := by decide
theorem test_illegal_frame_type : decode (.ft 0x1F) = .error .reservedFrameType := by decide
theorem test_illegal_flags : decode (.pf .client 0x48) = .error .reservedFlagBits := by decide
theorem test_table_word : decodeTableWord 16 0x0151 = some (.pktSerReg .server) := by decide
theorem test_table_byte : decodeTableWord 8 0xE9 = some (.ftStream true true 2 1) := by decide
theorem test_table_flags_byte : decodeTableWord 8 0x09 = some (.pfNegotiation false 0) := by decide

/-! ## Single steps -/

/-- The state after reset with `bs` loaded at 0 and LEN their count. -/
def loaded (bs : List Byte) : State :=
  { State.reset with buf := memPut [] 0 bs, len := BitVec.ofNat 16 bs.length }

/-- The state after `i`, where it answers one. -/
def after (i : Instr) (s : State) : Option State :=
  match exec i s with
  | .next t => some t
  | .fault _ => none
  | .refused _ => none

/-- The fault code and the command word that `i` leaves. -/
def faultOf (i : Instr) (s : State) : Option (BitVec 8 × CommandWord) := (after i s).map fun t => (t.err, t.cmd)

/-- The first `n` bytes of BUF, CUR and LEN after `i`. -/
def written (n : Nat) (i : Instr) (s : State) : Option (List Byte × BitVec 16 × BitVec 16) :=
  (after i s).map fun t => (t.memBytes 0 n, t.cur, t.len)

/-- The connection id `01 02 .. 08` of the vectors. -/
def cid : List Byte := [1, 2, 3, 4, 5, 6, 7, 8]

/-- The state of the vectors with LARGEST and a range list. -/
def acked (largest : BitVec 48) (rs : List (BitVec 48 × BitVec 48)) : State :=
  { State.reset with
    largest := largest, nranges := BitVec.ofNat 16 rs.length
    rangeFirst := rs.zipIdx.map fun p => (p.2, p.1.1), rangeLast := rs.zipIdx.map fun p => (p.2, p.1.2) }

/-- The version set holding Q039 in slot 0. -/
def withQ039 (s : State) : State := { s with supv := [0x39333051, 0, 0, 0], supven := 1 }

-- R120, R234
theorem test_faultAck_faulted : (after .faultAck { State.reset with mode := .faulted, err := 5, cmd := 0x10 }).map
    (fun t => (t.mode, t.err, t.cmd)) = some (.ready, 0, 0x10) := by decide
theorem test_faultAck_ready : (after .faultAck State.reset).map (fun t => (t.mode, t.cmd)) = some (.ready, 1) := by decide

-- V3, V5, V10, V20
theorem test_pnWidth : (after .pnWidth { State.reset with val := 0x10000 }).map (fun t => (t.wid, t.code)) = some (4, 2) := by
  decide
theorem test_pnWidth_zero : faultOf .pnWidth State.reset = some (5, 0x10) := by decide
theorem test_sidWidth : (after .sidWidth { State.reset with val := 0x1000000 }).map (fun t => (t.wid, t.code)) =
    some (4, 3) := by decide
theorem test_offWidth : (after .offWidth { State.reset with val := 1 }).map (fun t => (t.wid, t.code)) = some (2, 1) := by
  decide
theorem test_offWidth_over : faultOf .offWidth { State.reset with val := 0x100000000000000 } = some (5, 0x20) := by decide

-- V21 to V23
theorem test_pnC2w : (after .pnC2w { State.reset with code := 3 }).map (fun t => t.wid) = some 6 := by decide
theorem test_pnC2w_over : faultOf .pnC2w { State.reset with code := 4 } = some (4, 0x11) := by decide
theorem test_sidC2w : (after .sidC2w { State.reset with code := 2 }).map (fun t => t.wid) = some 3 := by decide
theorem test_offC2w : (after .offC2w { State.reset with code := 6 }).map (fun t => t.wid) = some 7 := by decide
theorem test_offC2w_reserved : faultOf .offC2w { State.reset with code := 7 } = some (4, 0x21) := by decide

-- V28, V26, V29, V36, V34
theorem test_pnDec : (after .pnDec { loaded [1, 0, 0, 0, 0, 0x80] with wid := 6 }).map (fun t => (t.val, t.cur)) =
    some (0x800000000001, 6) := by decide
theorem test_pnDec_width : faultOf .pnDec { loaded [1, 2, 3] with wid := 3 } = some (4, 0x12) := by decide
theorem test_sidDec : (after .sidDec { loaded [1, 0, 1] with wid := 3 }).map (fun t => (t.val, t.cur)) =
    some (0x010001, 3) := by decide
theorem test_offDec : (after .offDec { loaded [1, 2, 3, 4, 5, 6, 7] with wid := 7 }).map (fun t => (t.val, t.cur)) =
    some (0x07060504030201, 7) := by decide
theorem test_offDec_past_len : faultOf .offDec { State.reset with cur := 5 } = some (2, 0x22) := by decide

-- V3, V41, V9, V13, V44
theorem test_pnEnc : written 4 .pnEnc { State.reset with val := 0x12345 } = some ([0x45, 0x23, 0x01, 0x00], 4, 4) := by
  decide
theorem test_pnEnc_no_space : faultOf .pnEnc { State.reset with cur := 2047, val := 0x100 } = some (3, 0x13) := by decide
theorem test_sidEnc : written 3 .sidEnc { State.reset with val := 0x10000 } = some ([0, 0, 1], 3, 3) := by decide
theorem test_offEnc : written 2 .offEnc { State.reset with val := 1 } = some ([1, 0], 2, 2) := by decide
theorem test_offEnc_no_space : faultOf .offEnc { State.reset with cur := 2049 } = some (3, 0x23) := by decide

-- V39, V40
theorem test_pnNext_wraps : (after .pnNext { State.reset with val := 0xFFFFFFFFFFFF }).map (fun t => t.val) = some 1 := by
  decide
theorem test_sidNext : (after .sidNext { State.reset with val := 0xFFFFFFFD }).map (fun t => t.val) = some 0xFFFFFFFF := by
  decide
theorem test_sidNext_over : faultOf .sidNext { State.reset with val := 0xFFFFFFFE } = some (5, 0x1C) := by decide

-- U13, U17, U19
theorem test_uf16Enc : (after .uf16Enc { State.reset with val := 1000000 }).map (fun t => t.val) = some 0x4F42 := by decide
theorem test_uf16Enc_saturates : (after .uf16Enc { State.reset with val := 0x3FFC0000001 }).map (fun t => t.val) =
    some 0xFFFF := by decide
theorem test_uf16Dec : (after .uf16Dec { State.reset with val := 0x4F42 }).map (fun t => t.val) = some 999936 := by decide
theorem test_uf16Dec_high_bits : (after .uf16Dec { State.reset with val := 0x12340FFF }).map (fun t => t.val) =
    some 4095 := by decide

-- F14, F2, F23, F20
theorem test_ftDec : (after .ftDec (loaded [0xE9])).map (fun t => (t.tb, t.finfo, t.fwid, t.cur)) =
    some (0xE9, 0x02BA, 0x013, 0) := by decide
theorem test_ftDec_reserved : faultOf .ftDec (loaded [0x08]) = some (6, 0x30) := by decide
theorem test_ftEnc : written 1 .ftEnc { State.reset with finfo := 0xF809 } = some ([0x7B], 1, 1) := by decide
theorem test_ftEnc_width : faultOf .ftEnc { State.reset with finfo := 0x01CA } = some (4, 0x31) := by decide

-- F1
theorem test_ftPadding : (after .ftPadding State.reset).map (fun t => (t.tb, t.finfo, t.fwid)) = some (0, 0, 0) := by decide
theorem test_ftRstStream : (after .ftRstStream State.reset).map (fun t => (t.tb, t.finfo, t.fwid)) = some (1, 1, 0) := by decide
theorem test_ftConnectionClose : (after .ftConnectionClose State.reset).map (fun t => (t.tb, t.finfo, t.fwid)) = some (2, 2, 0) := by decide
theorem test_ftGoaway : (after .ftGoaway State.reset).map (fun t => (t.tb, t.finfo, t.fwid)) = some (3, 3, 0) := by decide
theorem test_ftWindowUpdate : (after .ftWindowUpdate State.reset).map (fun t => (t.tb, t.finfo, t.fwid)) = some (4, 4, 0) := by decide
theorem test_ftBlocked : (after .ftBlocked State.reset).map (fun t => (t.tb, t.finfo, t.fwid)) = some (5, 5, 0) := by decide
theorem test_ftStopWaiting : (after .ftStopWaiting State.reset).map (fun t => (t.tb, t.finfo, t.fwid)) = some (6, 6, 0) := by decide
theorem test_ftPing : (after .ftPing State.reset).map (fun t => (t.tb, t.finfo, t.fwid)) = some (7, 7, 0) := by decide
-- F5, F9, F15, F17
theorem test_ftCongestionFeedback : (after (.ftCongestionFeedback 0x1F) State.reset).map
    (fun t => (t.tb, t.finfo, t.fwid)) = some (0x3F, 8, 0) := by decide
theorem test_ftAck : (after (.ftAck false 3 false 3) State.reset).map (fun t => (t.tb, t.finfo, t.fwid)) =
    some (0x5B, 0xF009, 0xD80) := by decide
theorem test_ftStream : (after (.ftStream true true 6 3) State.reset).map (fun t => (t.tb, t.finfo, t.fwid)) =
    some (0xFB, 0x07BA, 0x027) := by decide
theorem test_ftStream_reserved : faultOf (.ftStream false false 7 0) State.reset = some (4, 0) := by decide

-- S8c, R171, S12
theorem test_ackValidate : (after .ackValidate (acked 40 [(25, 40), (1, 23)])).map (fun t => t.cond) = some 1 := by decide
theorem test_ackValidate_overlap : (after .ackValidate (acked 7 [(5, 7), (2, 5)])).map (fun t => t.cond) = some 0 := by
  decide
theorem test_ackAcks : (after .ackAcks { acked 20 [(15, 20), (5, 8)] with lowest := 5, val := 15 }).map (fun t => t.cond) =
    some 1 := by decide
theorem test_ackAcks_gap : (after .ackAcks { acked 20 [(15, 20), (5, 8)] with lowest := 5, val := 9 }).map
    (fun t => t.cond) = some 0 := by decide

-- S7, A33, S7, A4
theorem test_ackDec : (after .ackDec (loaded [0x68, 0x36, 1, 0, 0, 2, 0x0A, 0xFF, 0, 1, 0x2C, 0])).map
    (fun t => (t.largest, t.lowest, t.ranges, t.cur)) = some (310, 1, [⟨301, 310⟩, ⟨1, 44⟩], 12) := by decide
theorem test_ackDec_timestamps :
    (after .ackDec (loaded [0x40, 0x28, 0xC4, 0x11, 0x0B, 2, 1, 0xAA, 0xBB, 0xCC, 0xDD, 2, 0xEE, 0xFF])).map
      (fun t => (t.largest, t.lowest, t.delay, t.nranges, t.cur)) = some (40, 30, 5000, 0, 14) := by decide
theorem test_ackEnc_split : written 12 .ackEnc (acked 310 [(301, 310), (1, 44)]) =
    some ([0x68, 0x36, 1, 0, 0, 2, 0x0A, 0xFF, 0, 1, 0x2C, 0], 12, 12) := by decide +kernel
theorem test_ackEnc_empty : written 6 .ackEnc { acked 40 [] with lowest := 30, delay := 5000 } =
    some ([0x40, 0x28, 0xC4, 0x11, 0x0B, 0], 6, 6) := by decide

-- H1, H14, H13, H9
theorem test_pktParse_client : (after (.pktParse .client) (withQ039 (loaded ([9] ++ cid ++ [0x51, 0x30, 0x33, 0x39, 5])))).map
    (fun t => (t.pkind, t.pflags, t.cid, t.pinfo, t.ver, t.pnum, t.pnlen, t.cur)) =
      some (0, 9, 0x0807060504030201, 1, 0x39333051, 5, 1, 14) := by decide
theorem test_pktParse_bad_flags : faultOf (.pktParse .client) (loaded [0x80]) = some (8, 0x50) := by decide
theorem test_pfNegotiation :
    (after (.pfNegotiation false 0) (loaded ([9] ++ cid ++ [0x51, 0x30, 0x33, 0x39, 0x51, 0x30, 0x33, 0x38]))).map
      (fun t => (t.pkind, t.pflags, t.nver, t.negoff, t.cur)) = some (2, 9, 2, 9, 17) := by decide
-- H7
theorem test_pfRegular : (after (.pfRegular false false 0) (loaded ([8] ++ cid ++ [7, 7, 0]))).map
    (fun t => (t.pkind, t.pnum, t.pnlen, t.cur)) = some (0, 7, 1, 10) := by decide

/-- The bytes of the Reset packet of 44_packet.md R207's worked example. -/
def resetPacket : List Byte :=
  [0x0A] ++ cid ++ [0x50, 0x52, 0x53, 0x54, 3, 0, 0, 0, 0x52, 0x4E, 0x4F, 0x4E, 0x20, 0, 0, 0, 0x52, 0x53, 0x45, 0x51,
    0x28, 0, 0, 0, 0x43, 0x41, 0x44, 0x52, 0x30, 0, 0, 0] ++ (List.range 32).map (fun i => BitVec.ofNat 8 (0xA0 + i)) ++
    [7, 0, 0, 0, 0, 0, 0, 0, 2, 0, 0xC0, 0, 2, 1, 0xBB, 1]

/-- The registers of that example. -/
def resetRegisters : State :=
  { State.reset with
    cid := 0x0807060504030201, nonce0 := 0xA7A6A5A4A3A2A1A0, nonce1 := 0xAFAEADACABAAA9A8
    nonce2 := 0xB7B6B5B4B3B2B1B0, nonce3 := 0xBFBEBDBCBBBAB9B8, pnum := 7, pinfo := 4, afam := 2
    addr0 := 0x010200C0, aport := 443 }

theorem test_pfReset : (after (.pfReset false false 0) (loaded resetPacket)).map
    (fun t => (t.pkind, t.pinfo, t.nonce3, t.pnum, t.afam, t.aport, t.addr0, t.cur)) =
      some (1, 4, 0xBFBEBDBCBBBAB9B8, 7, 2, 443, 0x010200C0, 89) := by decide
theorem test_pktSerRst_map : written 41 .pktSerRst resetRegisters = some (resetPacket.take 41, 89, 89) := by decide
theorem test_pktSerRst_tail : (after .pktSerRst resetRegisters).map (fun t => t.memBytes 73 16) =
    some (resetPacket.drop 73) := by decide

-- R210, R208, R209: the worked examples
theorem test_pktSerReg : written 14 (.pktSerReg .client)
    { State.reset with cid := 0x0807060504030201, pinfo := 1, ver := 0x39333051, pnum := 5 } =
      some ([9] ++ cid ++ [0x51, 0x30, 0x33, 0x39, 5], 14, 14) := by decide
theorem test_pktSerReg_server : faultOf (.pktSerReg .server) { State.reset with pinfo := 1, pnum := 5 } =
    some (11, 0x151) := by decide
theorem test_pktSerNeg : written 17 .pktSerNeg
    { State.reset with cid := 0x0807060504030201, supv := [0x39333051, 0x38333051, 0, 0], supven := 3 } =
      some ([9] ++ cid ++ [0x51, 0x30, 0x33, 0x39, 0x51, 0x30, 0x33, 0x38], 17, 17) := by decide
theorem test_verChoose :
    (after .verChoose { withQ039 (loaded ([9] ++ cid ++ [0x51, 0x30, 0x33, 0x38, 0x51, 0x30, 0x33, 0x39])) with
      nver := 2, negoff := 9 }).map (fun t => (t.versel, t.cond)) = some (0x39333051, 1) := by decide

/-! ## The step -/

/-- The state after one step. -/
def stepped (s : State) : Option State :=
  match step s with
  | .next t => some t
  | .fault _ => none
  | .refused _ => none

theorem test_step_issues : (stepped { State.reset with pending := [.regWrite 0 0x0055] }).map
    (fun t => (t.mode, t.err, t.cmd)) = some (.faulted, 1, 0x55) := by decide
theorem test_step_drops : (stepped { State.reset with mode := .faulted, err := 1, pending := [.regWrite 0 0x10] }).map
    (fun t => (t.mode, t.err, t.cmd)) = some (.faulted, 1, 0) := by decide
theorem test_step_reads_status :
    (stepped { State.reset with mode := .faulted, err := 2, pending := [.regRead 1] }).map (fun t => t.answer) =
      some (.register 0x0201) := by decide
theorem test_step_len_saturates : (stepped { State.reset with pending := [.regWrite 3 0xFFFF] }).map (fun t => t.len) =
    some 2048 := by decide
theorem test_step_reset : (stepped { State.reset with mode := .faulted, err := 2, val := 7, pending := [.reset] }).map
    (fun t => (t.mode, t.err, t.val, t.epoch)) = some (.ready, 0, 0, 1) := by decide
theorem test_fetch_command : (stepped (State.reset.withFetchWord 16 0x0029)).map (fun t => t.cmd) = some 0x29 := by decide
theorem test_fetch_type_byte : (stepped (State.reset.withFetchWord 8 0xE9)).map (fun t => (t.cmd, t.finfo)) =
    some (0x30, 0x02BA) := by decide
theorem test_fetch_flags_byte : (stepped (State.reset.withFetchWord 8 0x0A)).map (fun t => (t.cmd, t.err)) =
    some (0x50, 2) := by decide

/-! ## Witnesses: for each statement with hypotheses, states and operands that meet them, every clause at a boundary -/

/-- The reset state with one host action to come. -/
def asked (a : HostAction) : State := { State.reset with pending := [a] }

/-- The reset state in FAULTED mode, as a command with a wrong operand leaves it. -/
def faulted : State := { State.reset with mode := .faulted, err := 5, cmd := 0x14 }

theorem reset_legal : State.reset.Legal := by constructor <;> decide
theorem faulted_legal : faulted.Legal := by constructor <;> decide

/-- LEN, NRANGES and the parameters at their bounds. -/
theorem boundary_legal :
    ({ State.reset with
      cfg := ⟨65535, 65535, 16⟩, len := 65535, nranges := 65535, supven := 0xFFFF
      supv := List.replicate 16 1 } : State).Legal := by constructor <;> decide

theorem witness_EncodeOfDecodedIsTheSameBits : decode (.cw 0x0151) = .ok (.pktSerReg .server) ∧
    decode (.ft 0xFF) = .ok (.ftStream true true 7 3) ∧ decode (.pf .client 0x3D) = .ok (.pfRegular true true 3) := by
  decide
theorem witness_IllegalWordsRaiseIllegalCmd :
    (asked (.regWrite 0x00 0x10055)).pending = .regWrite 0x00 0x10055 :: [] ∧
      (asked (.regWrite 0x00 0x10055)).mode = .ready ∧ (0x10055 : PortWord).setWidth 16 ∉ legalWords := by decide
theorem witness_TypeByteKindsByRange : ∀ b ∈ ([0x00, 0x07, 0x08, 0x1F, 0x20, 0x3F, 0x40, 0x7F, 0x80, 0xFF] : List Byte),
    b.toNat ≤ 0x07 ∨ (0x08 ≤ b.toNat ∧ b.toNat ≤ 0x1F) ∨ (0x20 ≤ b.toNat ∧ b.toNat ≤ 0x3F) ∨
      (0x40 ≤ b.toNat ∧ b.toNat ≤ 0x7F) ∨ 0x80 ≤ b.toNat := by decide
theorem witness_FlagsByteVariants : (0x3F : Byte) &&& 0xCA = 0x0A ∧ (0x3D : Byte) &&& 0xCB = 0x09 ∧
    (0x3C : Byte) &&& 0xCA = 0x08 ∧ (0x3D : Byte) &&& 0xCA = 0x08 ∧ (0x48 : Byte) &&& 0xC8 ≠ 0x08 := by decide
theorem witness_StepRunsTheDecodedCommand :
    (asked (.regWrite 0x00 0x10013)).pending = .regWrite 0x00 0x10013 :: [] ∧
      decode (.cw ((0x10013 : PortWord).setWidth 16)) = .ok .pnEnc := by decide
theorem witness_StepRunsTheByteAtTheCursor_type :
    let s := { loaded [0xE9] with pending := [.regWrite 0x00 0x0030] }
    s.mode = .ready ∧ s.cur.toNat < s.len.toNat ∧ s.pending = .regWrite 0x00 0x0030 :: [] ∧
      decode (.ft (s.byte s.cur.toNat)) = .ok (.ftStream true true 2 1) := by decide
theorem witness_StepRunsTheByteAtTheCursor_flags :
    let s := { loaded [0x09] with pending := [.regWrite 0x00 (0x0150#16 |>.setWidth 64)] }
    s.mode = .ready ∧ s.cur.toNat < s.len.toNat ∧ s.pending = .regWrite 0x00 ((0x0150 : CommandWord).setWidth 64) :: [] ∧
      decode (.pf .server (s.byte s.cur.toNat)) = .ok (.pfNegotiation false 0) := by decide
theorem witness_BufferPortReadsAndWrites : (asked (.bufRead 2048)).pending = .bufRead 2048 :: [] ∧
    (asked (.bufWrite 2047 0xA5)).pending = .bufWrite 2047 0xA5 :: [] := by decide
theorem witness_PlainRegistersStoreTruncatedValues : (0x0A, 3) ∈ plainRegisters ∧ (0x1C, 16) ∈ plainRegisters ∧
    (0x32, 32) ∈ plainRegisters ∧
    (asked (.regWrite 0x32 0x1FFFFFFFF)).pending = .regWrite (BitVec.ofNat 8 0x32) 0x1FFFFFFFF :: [] := by decide
theorem witness_RegistersWithTheirOwnWriteRule :
    (∀ idx ∈ ([0x01, 0x03, 0x1B, 0x33, 0x1D, 0x1E, 0x40, 0x43, 0x44, 0xFF] : List (BitVec 8)),
      (asked (.regWrite idx 0xFFFFF)).pending = .regWrite idx 0xFFFFF :: []) ∧
    (0x43 : BitVec 8).toNat = 0x40 + 3 ∧ 3 < State.reset.cfg.nSupv ∧ State.reset.cfg.nSupv ≤ 16 ∧
    (0x44 : BitVec 8).toNat ∉ plainRegisters.map Prod.fst ∧
    (0x44 : BitVec 8).toNat ∉ [0x00, 0x01, 0x03, 0x1B, 0x1D, 0x1E, 0x33] ∧
    ¬(0x40 ≤ (0x44 : BitVec 8).toNat ∧ (0x44 : BitVec 8).toNat < 0x40 + State.reset.cfg.nSupv) := by decide
theorem witness_RegisterReads : (∀ idx ∈ ([0x00, 0x32, 0x33, 0x43, 0x27, 0x44] : List (BitVec 8)),
    (asked (.regRead idx)).pending = .regRead idx :: []) ∧
    (0x32, 0) ∈ registerMap (asked (.regRead 0x32)) ∧ (0x43, 0) ∈ registerMap (asked (.regRead 0x43)) ∧
    (∀ e ∈ registerMap (asked (.regRead 0x27)), e.1 ≠ (0x27 : BitVec 8).toNat) ∧
    (∀ e ∈ registerMap (asked (.regRead 0x44)), e.1 ≠ (0x44 : BitVec 8).toNat) := by decide
theorem witness_ResetInputGivesTheResetState : ({ faulted with pending := [.reset] } : State).pending = .reset :: [] := by
  decide
theorem witness_ResetStateIsLegal : Config.Params.ok ⟨128, 256, 1⟩ ∧ Config.Params.ok ⟨65535, 65535, 16⟩ := by decide
theorem witness_EveryStepKeepsStateLegal : State.reset.Legal ∧ ∃ t, step (asked (.regWrite 0x00 0x0014)) = .next t ∧
    t.mode = .faulted := ⟨reset_legal, _, rfl, rfl⟩
theorem witness_asked_is_legal : (asked (.regWrite 0x00 0x0014)).Legal := by constructor <;> decide
theorem witness_FaultsArePrecise : State.reset.Legal ∧ State.reset.mode = .ready ∧
    ∃ t, exec .pnNext State.reset = .next t ∧ t.mode = .faulted := ⟨reset_legal, rfl, _, rfl, rfl⟩
theorem witness_FaultsArePrecise_byte : State.reset.mode = .ready ∧
    ∃ t, exec (.ftStream true true 7 3) State.reset = .next t ∧ t.mode = .faulted := ⟨rfl, _, rfl, rfl⟩
theorem witness_FaultedModeDropsCommands : faulted.mode = .faulted ∧ Instr.pnEnc ≠ .faultAck ∧
    ({ faulted with pending := [.regWrite 0x00 0x0013] } : State).pending = .regWrite 0x00 0x0013 :: [] ∧
    (0x0013 : PortWord).setWidth 16 ≠ (0x0001 : CommandWord) := by decide
theorem witness_FaultAckReturnsToReady : faulted.mode = .faulted ∧ State.reset.mode = .ready := by decide
theorem witness_FaultThenFaultAckRestoresAllButCmd : State.reset.Legal ∧ State.reset.mode = .ready ∧
    ∃ t, exec .pnNext State.reset = .next t ∧ t.mode = .faulted := ⟨reset_legal, rfl, _, rfl, rfl⟩
theorem witness_OnlyPredicatesWriteCond : Instr.sidNext ∉ predicates ∧
    ∃ t, exec .sidNext State.reset = .next t ∧ t.val = 2 := ⟨by decide, _, rfl, rfl⟩
theorem witness_CursorLengthAndBufferUse : State.reset.Legal ∧ Instr.sidNext ∉ serializers ∧
    (∃ t, exec .sidNext State.reset = .next t) ∧ ∃ t, exec .sidEnc State.reset = .next t ∧ t.cur = 1 :=
  ⟨reset_legal, by decide, ⟨_, rfl⟩, _, rfl, rfl⟩
theorem witness_NoInstructionWritesTheHostsSettings : ∃ t, exec .sidEnc State.reset = .next t := ⟨_, rfl⟩

/-- Values at the ends of the three ranges, one below and one above. -/
theorem witness_WidthCommands : State.reset.mode = .ready ∧
    (1 ≤ (1 : BitVec 64).toNat ∧ (0xFFFFFFFFFFFF : BitVec 64).toNat ≤ 0xFFFFFFFFFFFF) ∧
    ((0 : BitVec 64).toNat < 1 ∧ 0xFFFFFFFFFFFF < (0x1000000000000 : BitVec 64).toNat) ∧
    (0xFFFFFFFF : BitVec 64).toNat ≤ 0xFFFFFFFF ∧ 0xFFFFFFFF < (0x100000000 : BitVec 64).toNat ∧
    (0xFFFFFFFFFFFFFF : BitVec 64).toNat ≤ 0xFFFFFFFFFFFFFF ∧
    0xFFFFFFFFFFFFFF < (0x100000000000000 : BitVec 64).toNat := by decide
theorem witness_CodeToWidthCommands : State.reset.mode = .ready ∧
    ([1, 2, 4, 6] : List (BitVec 4))[(3 : BitVec 3).toNat]? = some 6 ∧ 3 < (4 : BitVec 3).toNat ∧
    ([1, 2, 3, 4] : List (BitVec 4))[(3 : BitVec 3).toNat]? = some 4 ∧
    ([0, 2, 3, 4, 5, 6, 7] : List (BitVec 4))[(6 : BitVec 3).toNat]? = some 7 ∧ (7 : BitVec 3).toNat = 7 := by decide
theorem witness_IntegerDecode :
    let s := { loaded [0, 0] with wid := 2 }
    s.mode = .ready ∧ s.wid.toNat ∈ [1, 2, 4, 6] ∧ s.wid.toNat ∈ [1, 2, 3, 4] ∧ s.wid.toNat ∈ [0, 2, 3, 4, 5, 6, 7] ∧
      s.cur.toNat + s.wid.toNat ≤ s.len.toNat ∧ s.memRead s.cur.toNat s.wid.toNat = 0 := by decide
theorem witness_IntegerDecode_value :
    let s := { loaded [0, 1] with wid := 2 }
    s.cur.toNat + s.wid.toNat ≤ s.len.toNat ∧ s.memRead s.cur.toNat s.wid.toNat ≠ 0 := by decide
theorem witness_IntegerDecode_faults :
    ({ State.reset with wid := 8 } : State).wid.toNat ∉ [1, 2, 4, 6] ++ [1, 2, 3, 4] ++ [0, 2, 3, 4, 5, 6, 7] ∧
      ({ loaded [0] with wid := 2 } : State).len.toNat < 0 + ({ loaded [0] with wid := 2 } : State).wid.toNat := by decide
theorem witness_IntegerEncode :
    let s := { State.reset with val := 0x100, cur := 2046 }
    let full := { State.reset with val := 0x100, cur := 2047 }
    s.mode = .ready ∧ (1 ≤ s.val.toNat ∧ s.val.toNat ≤ 0xFFFFFFFF) ∧
      s.cur.toNat + pnWidth s.val.toNat ≤ s.cfg.bufSize ∧ s.cur.toNat + sidWidth s.val.toNat ≤ s.cfg.bufSize ∧
      s.cur.toNat + offWidth s.val.toNat ≤ s.cfg.bufSize ∧ full.cfg.bufSize < full.cur.toNat + pnWidth full.val.toNat ∧
      full.cfg.bufSize < full.cur.toNat + sidWidth full.val.toNat ∧
      full.cfg.bufSize < full.cur.toNat + offWidth full.val.toNat := by decide
theorem witness_Successors : State.reset.mode = .ready ∧ State.reset.val.toNat < 1 ∧
    (0xFFFFFFFFFFFF : BitVec 64).toNat = 0xFFFFFFFFFFFF ∧ (0xFFFFFFFFFFFE : BitVec 64).toNat < 0xFFFFFFFFFFFF ∧
    0xFFFFFFFF < (0xFFFFFFFE : BitVec 64).toNat + 2 ∧ (0xFFFFFFFD : BitVec 64).toNat + 2 ≤ 0xFFFFFFFF := by decide
theorem witness_WidthsAreMinimal : 4 ∈ [1, 2, 4, 6] ∧ 0xFFFFFFFF < 256 ^ 4 ∧ 0xFFFFFFFF ≤ 0xFFFFFFFFFFFF ∧
    2 ∈ [0, 2, 3, 4, 5, 6, 7] ∧ 1 < 256 ^ 2 := by decide
theorem witness_IntegerRoundTrip : ({ State.reset with val := 0x12345 } : State).Legal ∧
    (Instr.pnEnc, Instr.pnDec) ∈ [(Instr.pnEnc, Instr.pnDec), (.sidEnc, .sidDec), (.offEnc, .offDec)] ∧
    ∃ t, exec .pnEnc { State.reset with val := 0x12345 } = .next t ∧ t.mode = .ready ∧
      ({ t with cur := 0 } : State).mode = .ready ∧ ({ t with cur := 0 } : State).cur = State.reset.cur ∧
      t.cur.toNat ≤ ({ t with cur := 0 } : State).len.toNat ∧ ∀ a, ({ t with cur := 0 } : State).byte a = t.byte a :=
  ⟨by constructor <;> decide, by decide, _, rfl, rfl, rfl, rfl, by decide, fun _ => rfl⟩
theorem witness_MemReadOfMemWrite : 0xFFFF < 2 ^ (8 * 2) ∧ BytesAt (loaded [0xFF, 0xFF]) 0 (leBytes 2 0xFFFF) :=
  ⟨by decide, by unfold BytesAt; decide⟩
theorem witness_FloatCommands : State.reset.mode = .ready := rfl
theorem witness_FloatLaws : 65534 < 65535 ∧ 65535 < 65536 ∧ 4094 < 4095 ∧ 0x3FFBFFFFFFF ≤ 0x3FFC0000000 := by decide

theorem witness_TypeBytesClassify :
    encode .ftPing = .ft 7 ∧ encode (.ftCongestionFeedback 31) = .ft 0x3F ∧
      encode (.ftAck true 3 true 3) = .ft 0x7F ∧ encode (.ftStream true true 6 3) = .ft 0xFB ∧ (6 : BitVec 3) ≠ 7 ∧
      (loaded [0xFB]).mode = .ready ∧ (loaded [0xFB]).cur.toNat < (loaded [0xFB]).len.toNat ∧
      (loaded [0xFB]).byte (loaded [0xFB]).cur.toNat = 0xFB := by decide
theorem witness_FrameDecodeFaults : State.reset.mode = .ready ∧ State.reset.len.toNat ≤ State.reset.cur.toNat ∧
    (loaded [0x1F]).cur.toNat < (loaded [0x1F]).len.toNat ∧ 0x08 ≤ ((loaded [0x1F]).byte 0).toNat ∧
    ((loaded [0x1F]).byte 0).toNat ≤ 0x1F ∧ 0x80 ≤ ((loaded [0x9C]).byte 0).toNat ∧
    field ((loaded [0x9C]).byte 0) 4 2 = 7 := by decide
theorem witness_FrameEncode :
    11 ≤ field (0x000B : BitVec 16) 3 0 ∧ (field (0x01CA : BitVec 16) 3 0 = 10 ∧ field (0x01CA : BitVec 16) 8 6 = 7) ∧
      field (0xFFF7 : BitVec 16) 3 0 ≤ 7 ∧ field (0xFFF8 : BitVec 16) 3 0 = 8 ∧ field (0xF809 : BitVec 16) 3 0 = 9 ∧
      (field (0x07BA : BitVec 16) 3 0 = 10 ∧ field (0x07BA : BitVec 16) 8 6 ≠ 7) ∧
      ({ State.reset with cur := 2047 } : State).cur.toNat + 1 ≤ State.reset.cfg.bufSize ∧
      State.reset.cfg.bufSize < ({ State.reset with cur := 2048 } : State).cur.toNat + 1 := by decide
theorem witness_ComposeInvertsClassify : State.reset.mode = .ready ∧ encode (.ftAck true 3 true 3) = .ft 0x7F ∧
    ∃ t, exec (.ftAck true 3 true 3) State.reset = .next t ∧ t.mode = .ready := ⟨rfl, by decide, _, rfl, rfl⟩

theorem witness_AckPredicates :
    let s := { acked 20 [(15, 20), (5, 8)] with lowest := 5, val := 5 }
    s.mode = .ready ∧ (s.lowest.toNat ≤ s.val.toNat ∧ s.val.toNat ≤ s.largest.toNat) ∧ 1 < s.nranges.toNat ∧
      (s.rangeFirstAt 1).toNat ≤ s.val.toNat ∧ s.val.toNat ≤ (s.rangeLastAt 1).toNat := by decide
theorem witness_AckPredicates_not :
    let s := { acked 20 [(15, 20), (5, 8)] with lowest := 5, val := 21 }
    s.mode = .ready ∧ ¬(s.lowest.toNat ≤ s.val.toNat ∧ s.val.toNat ≤ s.largest.toNat) := by decide
theorem witness_AckDecodeWithoutMissingRanges :
    let s := loaded [0x40, 0x28, 0x00, 0x00, 0x28, 0x00]
    s.mode = .ready ∧ field (s.byte s.cur.toNat) 7 5 = 2 ∧ codedWidth (s.byte s.cur.toNat) 4 3 = 1 ∧
      codedWidth (s.byte s.cur.toNat) 1 0 = 1 ∧ s.memRead (s.cur.toNat + 1) 1 = 40 ∧
      s.memRead (s.cur.toNat + 3 + 1) 1 = 40 ∧ (s.byte (s.cur.toNat + 3 + 1 + 1)).toNat = 0 ∧
      s.cur.toNat + 4 + 1 + 1 + 0 ≤ s.len.toNat := by decide
/-- Two timestamp entries: five bytes and three. -/
theorem witness_AckDecodeWithoutMissingRanges_stamps :
    let s := loaded [0x40, 0x28, 0x00, 0x00, 0x28, 0x02, 1, 2, 3, 4, 5, 6, 7, 8]
    field (s.byte 0) 7 5 = 2 ∧ (s.byte (0 + 3 + 1 + 1)).toNat = 2 ∧
      0 + 4 + 1 + 1 + (5 + 3 * (2 - 1)) ≤ s.len.toNat ∧ (after .ackDec s).map (fun t => t.cur) = some 14 := by decide
theorem witness_AckDecodeFaults :
    State.reset.mode = .ready ∧ State.reset.len.toNat < State.reset.cur.toNat + 1 ∧
      field ((loaded [0x80]).byte 0) 7 6 ≠ 1 ∧ 0 + 1 ≤ (loaded [0x80]).len.toNat ∧
      field ((loaded [0x40]).byte 0) 7 6 = 1 ∧ (loaded [0x40]).len.toNat < 0 + 1 + codedWidth ((loaded [0x40]).byte 0) 4 3 ∧
      0 + 1 + codedWidth ((loaded [0x40, 0]).byte 0) 4 3 ≤ (loaded [0x40, 0]).len.toNat ∧
      (loaded [0x40, 0]).memRead (0 + 1) (codedWidth ((loaded [0x40, 0]).byte 0) 4 3) = 0 := by decide

/-- An ACK frame with largest acknowledged 40, delay 0, first block 16 and the given bytes for the count and what follows
the first block: the next run ends below 25. -/
def ackWith (count : Byte) (rest : List Byte) : State := loaded ([0x60, 0x28, 0, 0, count, 0x10] ++ rest)

/-- The first block missing, 0, and above the largest. -/
theorem witness_AckDecodeFaults_first_block :
    (loaded [0x60, 0x28, 0, 0, 1]).len.toNat < (ackWireAt (loaded [0x60, 0x28, 0, 0, 1]) 0).pairs ∧
      (loaded [0x60, 0x28, 0, 0, 1]).memRead (0 + 1) 1 ≠ 0 ∧
      (ackWireAt (loaded [0x60, 0x28, 0, 0, 1, 0]) 0).pairs ≤ (loaded [0x60, 0x28, 0, 0, 1, 0]).len.toNat ∧
      (ackWireAt (loaded [0x60, 0x28, 0, 0, 1, 0]) 0).firstBlock = 0 ∧
      (ackWireAt (loaded [0x60, 0x28, 0, 0, 1, 41]) 0).largest < (ackWireAt (loaded [0x60, 0x28, 0, 0, 1, 41]) 0).firstBlock ∧
      (ackWireAt (ackWith 1 [1, 0x18, 0]) 0).firstBlock = 16 ∧ (ackWireAt (ackWith 1 [1, 0x18, 0]) 0).largest = 40 := by
  decide
/-- A gap of 1 and a run of 24 reach packet number 0. -/
theorem witness_AckDecodeFaults_overrun : ∃ k, (ackWireAt (ackWith 1 [1, 0x18, 0]) 0).overruns (ackWith 1 [1, 0x18, 0]) k :=
  ⟨0, by unfold AckWire.overruns; decide⟩
/-- No pair of a frame with one pair overruns where its gap and run stay below the first block. -/
theorem one_pair_stays {s : State} {x : AckWire} (h : x.count = 0 ∨ x.count = 1 ∧ x.span s 1 < x.first) :
    ∀ k, ¬x.overruns s k := by
  rintro k ⟨h1, -, -, h2⟩
  obtain rfl : k = 0 := by omega
  simp only [Nat.zero_add] at h2
  omega
/-- A block length, the timestamp count, and the fifth byte of the first timestamp entry missing. -/
theorem witness_AckDecodeFaults_cut :
    (ackWith 1 [1]).len.toNat < (ackWireAt (ackWith 1 [1]) 0).next ∧
      (ackWith 1 [1, 0x17]).len.toNat < (ackWireAt (ackWith 1 [1, 0x17]) 0).next ∧
      (ackWith 1 [1, 0x17, 1, 0, 0, 0, 0]).len.toNat < (ackWireAt (ackWith 1 [1, 0x17, 1, 0, 0, 0, 0]) 0).next :=
  have below (s : State) (h : s.len.toNat < (ackWireAt s 0).stamps + 1) : s.len.toNat < (ackWireAt s 0).next :=
    Nat.lt_of_lt_of_le h (Nat.le_add_right _ _)
  ⟨below _ (by decide), below _ (by decide), by decide⟩
theorem witness_AckDecodeFaults_cut_stays :
    ∀ k, ¬(ackWireAt (ackWith 1 [1, 0x17]) 0).overruns (ackWith 1 [1, 0x17]) k := one_pair_stays (.inr (by decide))
/-- No pair, a pair without a block length, and a pair without a gap. -/
theorem witness_AckDecodeFaults_invalid :
    (ackWireAt (ackWith 0 [0]) 0).invalid (ackWith 0 [0]) ∧
      (ackWireAt (ackWith 1 [255, 0, 0]) 0).invalid (ackWith 1 [255, 0, 0]) ∧
      (ackWireAt (ackWith 1 [0, 0x17, 0]) 0).invalid (ackWith 1 [0, 0x17, 0]) ∧
      (ackWireAt (ackWith 0 [0]) 0).missing = true ∧ (ackWireAt (ackWith 0 [0]) 0).next ≤ (ackWith 0 [0]).len.toNat :=
  ⟨.inl (by decide), .inl (by decide), .inr ⟨0, by decide, by decide, by decide⟩, by decide, by decide⟩
theorem witness_AckDecodeFaults_invalid_stays :
    (∀ k, ¬(ackWireAt (ackWith 0 [0]) 0).overruns (ackWith 0 [0]) k) ∧
      ∀ k, ¬(ackWireAt (ackWith 1 [0, 0x17, 0]) 0).overruns (ackWith 1 [0, 0x17, 0]) k :=
  ⟨one_pair_stays (.inl (by decide)), one_pair_stays (.inr (by decide))⟩
theorem witness_AckDecodeWritesWhatItParsed :
    (ackWith 1 [1, 0x17, 0]).mode = .ready ∧
      ackParse (ackWith 1 [1, 0x17, 0]) 0 = .ok ⟨40, 1, 0, [⟨25, 40⟩, ⟨1, 23⟩], 9⟩ := by decide
theorem witness_AckDecodeWritesWhatItParsed_fields :
    let s := ackWith 1 [1, 0x17, 0]
    field (s.byte s.cur.toNat) 7 5 = 3 ∧ (ackWireAt s 0).next ≤ s.len.toNat ∧ 1 ≤ (ackWireAt s 0).firstBlock ∧
      (ackWireAt s 0).firstBlock ≤ (ackWireAt s 0).largest ∧ (∀ k, ¬(ackWireAt s 0).overruns s k) ∧
      ¬(ackWireAt s 0).invalid s := by
  refine ⟨by decide, by decide, by decide, by decide, one_pair_stays (.inr (by decide)), ?_⟩
  rintro (h | ⟨k, h1, -, h2⟩)
  · exact absurd (h 0 (by decide)) (by decide)
  · obtain rfl : k = 0 := Nat.lt_one_iff.1 h1
    exact absurd h2 (by decide)
theorem witness_ContinuationPairsMerge :
    (∀ x ∈ [255], x ≤ 255) ∧ 44 < 256 ^ 1 ∧
      BytesAt (loaded [0xFF, 0, 1, 0x2C]) 0 (pairBytes 1 ([255].map (fun x => (x, 0)) ++ [(1, 44)])) ∧
      0 + ([255].length + 1) * (1 + 1) ≤ (loaded [0xFF, 0, 1, 0x2C]).len.toNat ∧
      [255].sum + 1 + 44 < 301 ∧ 300 ≤ [255].sum + 1 + 44 :=
  ⟨by decide, by decide, by unfold BytesAt; decide, by decide, by decide, by decide⟩
theorem witness_ContinuationPairsMerge_incomplete :
    BytesAt (loaded [0xFF, 0, 1, 0]) 0 (pairBytes 1 ([255].map (fun x => (x, 0)) ++ [(1, 0)])) := by
  unfold BytesAt; decide
theorem witness_AckDecodeDeliversValidRanges : (loaded [0x60, 0x28, 0, 0, 1, 0x10, 1, 0x17, 0]).Legal ∧
    ∃ t, exec .ackDec (loaded [0x60, 0x28, 0, 0, 1, 0x10, 1, 0x17, 0]) = .next t ∧ t.mode = .ready :=
  ⟨by constructor <;> decide, _, rfl, rfl⟩
theorem witness_AckEncodeOfEmptyListAndFaults :
    State.reset.largest = 0 ∧ (acked 10 []).nranges = 0 ∧ (acked 10 []).lowest = 0 ∧ (acked 10 []).largest ≠ 0 ∧
      (acked 10 []).largest.toNat < ({ acked 10 [] with lowest := 11 } : State).lowest.toNat ∧
      ackValid 10 (acked 10 [(1, 10)]).ranges = false ∧ (acked 10 [(5, 10), (0, 3)]).rangeFirstAt (2 - 1) = 0 ∧
      1 ≤ ({ acked 10 [] with lowest := 10 } : State).lowest.toNat ∧
      ({ acked 10 [] with lowest := 10, cur := 2042 } : State).cur.toNat + (4 + 1 + 1) ≤ 2048 ∧
      2048 < ({ acked 10 [] with lowest := 10, cur := 2043 } : State).cur.toNat + (4 + 1 + 1) := by decide
theorem witness_AckEncodeOfRangeList :
    let s := { acked 40 [(25, 40), (1, 23)] with cur := 2039 }
    s.mode = .ready ∧ s.ranges = [⟨25, 40⟩, ⟨1, 23⟩] ∧ ackValid s.largest.toNat [⟨25, 40⟩, ⟨1, 23⟩] = true ∧
      s.rangeFirstAt (s.nranges.toNat - 1) ≠ 0 ∧ s.largest ≠ 0 ∧ ackEntries 25 0 [⟨1, 23⟩] = (1, [(1, 23)]) ∧
      s.cur.toNat + 9 ≤ s.cfg.bufSize ∧ s.cfg.bufSize < ({ s with cur := 2040 } : State).cur.toNat + 9 := by decide
/-- The first gap is 65026, one more than 255 entries of 255 cover: no further range is emitted. -/
theorem witness_AckEncodeOfRangeList_dropped : ackEntries 69990 0 [⟨1, 4963⟩] = (0, []) := by decide
/-- The widest gap there is: its entries are counted, never listed. -/
theorem test_widest_gap_is_dropped : ackEntries 0xFFFFFFFFFFFF 0 [⟨1, 1⟩] = (0, []) := by decide
theorem witness_GapSplitting : 1 ≤ 255 ∧ 1 ≤ 256 := by decide
theorem witness_EntryCapKeepsHighestRanges :
    rangesDescend [⟨69990, 70000⟩, ⟨1, 4963⟩] = true ∧ ackEntries 69990 0 [⟨1, 4963⟩] = (0, []) ∧
      rangesDescend [⟨25, 40⟩, ⟨1, 23⟩] = true ∧ ackEntries 25 0 [⟨1, 23⟩] = (1, [(1, 23)]) := by decide
theorem witness_AckRoundTrip : (acked 40 [(25, 40), (1, 23)]).Legal ∧
    ∃ t, exec .ackEnc (acked 40 [(25, 40), (1, 23)]) = .next t ∧ t.mode = .ready ∧ t.aemit = 2 ∧
      t.cur.toNat ≤ ({ t with cur := 0 } : State).len.toNat ∧ ∀ a, ({ t with cur := 0 } : State).byte a = t.byte a :=
  ⟨by constructor <;> decide, _, rfl, rfl, rfl, by decide, fun _ => rfl⟩

/-- The vectors H6, H13: a header with a version tag and a nonce, ending exactly at LEN. -/
def fullHeader : State :=
  withQ039 (loaded ([0x3D] ++ cid ++ [0x51, 0x30, 0x33, 0x39] ++ (List.range 32).map (fun i => BitVec.ofNat 8 (0xA0 + i)) ++
    [0xFF, 0xFF, 0xFF, 0xFF, 0xFF, 0xFF]))

theorem witness_RegularHeaderParse :
    fullHeader.mode = .ready ∧ fullHeader.byte fullHeader.cur.toNat = flagsPattern 3 true false true ∧
      pnOfCode (3 : BitVec 2).toNat = 6 ∧ fullHeader.cur.toNat + 9 + 4 + 32 + 6 ≤ fullHeader.len.toNat ∧
      fullHeader.supported (fullHeader.memRead (fullHeader.cur.toNat + 9) 4) = true ∧
      fullHeader.memRead (fullHeader.cur.toNat + 9 + 4 + 32) 6 ≠ 0 := by decide
theorem witness_RegularHeaderParse_server :
    (loaded ([0x08] ++ cid ++ [7])).byte 0 = flagsPattern 0 false false false ∧
      0 + 9 + 1 ≤ (loaded ([0x08] ++ cid ++ [7])).len.toNat ∧ (loaded ([0x08] ++ cid ++ [7])).memRead (0 + 9) 1 ≠ 0 := by
  decide
theorem witness_NegotiationParse :
    (loaded ([9] ++ cid)).mode = .ready ∧ (loaded ([9] ++ cid)).byte 0 = flagsPattern 0 false false true ∧
      0 + 9 ≤ (loaded ([9] ++ cid)).len.toNat ∧ ((loaded ([9] ++ cid)).len.toNat - 9) % 4 = 0 ∧
      ((loaded ([9] ++ cid ++ [0x51])).len.toNat - 9) % 4 ≠ 0 := by decide
theorem witness_ResetParse :
    (loaded resetPacket).mode = .ready ∧ (loaded resetPacket).byte 0 = flagsPattern 0 false true false ∧
      (loaded resetPacket).memRead (9 + 4) 2 = 3 ∧ (loaded resetPacket).memRead (41 + 40) 2 = 2 ∧
      41 + 48 ≤ (loaded resetPacket).len.toNat ∧ (loaded resetPacket).memRead (41 + 32) 8 = 7 ∧
      (loaded resetPacket).memBytes 9 4 = [0x50, 0x52, 0x53, 0x54] ∧
      (loaded resetPacket).memBytes 17 16 =
        [0x52, 0x4E, 0x4F, 0x4E, 0x20, 0, 0, 0, 0x52, 0x53, 0x45, 0x51, 0x28, 0, 0, 0] ∧
      (loaded resetPacket).memBytes 33 8 = [0x43, 0x41, 0x44, 0x52, 48, 0, 0, 0] := by decide
theorem witness_PacketParseFaults :
    State.reset.mode = .ready ∧ State.reset.len.toNat ≤ State.reset.cur.toNat ∧
      (loaded [0x80]).byte 0 &&& 0xC8 ≠ 0x08 ∧
      ((loaded [0x08, 1, 2, 3]).byte 0 &&& 0xC8 = 0x08 ∧ (loaded [0x08, 1, 2, 3]).len.toNat < 0 + 9) ∧
      ((loaded ([9] ++ cid ++ [1, 2, 3, 4])).byte 0 &&& 0xCB = 0x09 ∧
        0 + 13 ≤ (loaded ([9] ++ cid ++ [1, 2, 3, 4])).len.toNat ∧
        (loaded ([9] ++ cid ++ [1, 2, 3, 4])).supported ((loaded ([9] ++ cid ++ [1, 2, 3, 4])).memRead (0 + 9) 4) = false) := by
  decide
/-- A Regular header cut in its version tag and in its packet number, after its nonce, and one with packet number 0; a
Negotiation packet cut in its connection id. -/
theorem witness_PacketParseFaults_fields :
    (loaded ([9] ++ cid ++ [1, 2, 3])).len.toNat < 0 + 9 + 4 ∧
      (0 + 9 ≤ (loaded ([0x18] ++ cid ++ [5])).len.toNat ∧ (loaded ([0x18] ++ cid ++ [5])).len.toNat < 0 + 9 + 2) ∧
      (loaded ([0x0C] ++ cid ++ List.replicate 32 0)).len.toNat < 0 + 9 + 32 + 1 ∧
      (0 + 9 + 1 ≤ (loaded ([8] ++ cid ++ [0])).len.toNat ∧ (loaded ([8] ++ cid ++ [0])).memRead (0 + 9) 1 = 0) ∧
      (loaded ([9] ++ cid.take 7)).len.toNat < 0 + 9 ∧
      decode (.pf .server 0x18) = .ok (.pfRegular false false 1) ∧ flagsPattern 1 false false false = 0x18 := by decide

/-- The Reset packet above with the byte at `i` changed to `b`. -/
def resetChanged (i : Nat) (b : Byte) : State := loaded (resetPacket.set i b)

/-- A Reset packet cut in the map's head, in its index and in its values. -/
theorem witness_PacketParseFaults_reset_cut :
    (loaded (resetPacket.take 16)).len.toNat < 9 + 8 ∧
      (loaded ((resetPacket.set 13 2).take 32)).memRead (9 + 4) 2 = 2 ∧
      9 + 8 ≤ (loaded ((resetPacket.set 13 2).take 32)).len.toNat ∧
      (loaded ((resetPacket.set 13 2).take 32)).len.toNat < 9 + 8 + 8 * 2 ∧
      (loaded (resetPacket.take 88)).len.toNat < 41 + 48 ∧ 41 ≤ (loaded (resetPacket.take 88)).len.toNat := by decide
/-- A wrong map tag, four entries, a wrong key, a wrong end offset. -/
theorem witness_PacketParseFaults_reset_map :
    ¬BytesAt (resetChanged 9 0x51) 9 [0x50, 0x52, 0x53, 0x54] ∧ (resetChanged 13 4).memRead (9 + 4) 2 = 4 ∧
      ¬BytesAt (resetChanged 25 0x53) (9 + 8)
        [0x52, 0x4E, 0x4F, 0x4E, 0x20, 0, 0, 0, 0x52, 0x53, 0x45, 0x51, 0x28, 0, 0, 0] ∧
      (resetChanged 37 52).memRead (9 + 4) 2 = 3 ∧
      ¬BytesAt (resetChanged 37 52) (9 + 24) [0x43, 0x41, 0x44, 0x52, 0x30, 0, 0, 0] ∧
      ¬BytesAt (resetChanged 37 52) (9 + 24) [0x43, 0x41, 0x44, 0x52, 0x3C, 0, 0, 0] := by
  unfold BytesAt; decide
/-- RSEQ 0 and 2^48 + 7, and the IPv6 family in an entry of IPv4's length, all else as it must be. -/
theorem witness_PacketParseFaults_reset_values :
    (resetChanged 73 0).memRead (41 + 32) 8 < 1 ∧ 0xFFFFFFFFFFFF < (resetChanged 79 1).memRead (41 + 32) 8 ∧
      (resetChanged 81 0x0A).memRead (41 + 40) 2 ≠ 0x0002 ∧ (resetChanged 81 0x0A).memRead (41 + 32) 8 = 7 ∧
      41 + 48 ≤ (resetChanged 81 0x0A).len.toNat ∧ BytesAt (resetChanged 81 0x0A) 9 [0x50, 0x52, 0x53, 0x54] ∧
      BytesAt (resetChanged 81 0x0A) (9 + 8)
        [0x52, 0x4E, 0x4F, 0x4E, 0x20, 0, 0, 0, 0x52, 0x53, 0x45, 0x51, 0x28, 0, 0, 0] ∧
      BytesAt (resetChanged 81 0x0A) (9 + 24) [0x43, 0x41, 0x44, 0x52, BitVec.ofNat 8 48, 0, 0, 0] := by
  unfold BytesAt; decide
theorem witness_SerializeRegular :
    let s := { State.reset with pinfo := 3, pnum := 1, cur := 2002 }
    s.mode = .ready ∧ s.pinfo.getLsbD 0 = true ∧ s.pinfo.getLsbD 1 = true ∧ s.pnum ≠ 0 ∧
      s.cur.toNat + (9 + 4 + 32 + pnWidth s.pnum.toNat) ≤ s.cfg.bufSize ∧
      s.cfg.bufSize < ({ s with cur := 2003 } : State).cur.toNat + (9 + 4 + 32 + pnWidth s.pnum.toNat) ∧
      State.reset.pnum = 0 ∧ State.reset.pinfo.getLsbD 0 = false := by decide
theorem witness_SerializeReset :
    resetRegisters.mode = .ready ∧ resetRegisters.pinfo.getLsbD 2 = true ∧ resetRegisters.afam = 2 ∧
      resetRegisters.pnum ≠ 0 ∧ ({ resetRegisters with cur := 1959 } : State).cur.toNat + 89 ≤ 2048 ∧
      2048 < ({ resetRegisters with cur := 1960 } : State).cur.toNat + 89 ∧
      (({ resetRegisters with afam := 3 } : State).afam ≠ 2 ∧ ({ resetRegisters with afam := 3 } : State).afam ≠ 10) := by
  decide
theorem witness_SerializeNegotiation :
    let s := { withQ039 State.reset with cur := 2035 }
    s.mode = .ready ∧
      ((List.range s.cfg.nSupv).filter fun j => s.supven.getLsbD j).map (fun j => (s.supv.getD j 0).toNat) = [0x39333051] ∧
      s.cur.toNat + (9 + 4 * 1) ≤ s.cfg.bufSize ∧ s.cfg.bufSize < ({ s with cur := 2036 } : State).cur.toNat + (9 + 4 * 1) := by
  decide
theorem witness_VersionChoice :
    let s := { withQ039 (loaded [0x51, 0x30, 0x33, 0x38, 0x51, 0x30, 0x33, 0x39]) with nver := 2 }
    s.mode = .ready ∧ s.negoff.toNat + 4 * s.nver.toNat ≤ s.len.toNat ∧ 1 < s.nver.toNat ∧
      s.supported (s.memRead (s.negoff.toNat + 4 * 1) 4) = true ∧ s.supported (s.memRead (s.negoff.toNat + 4 * 0) 4) = false ∧
      ({ s with nver := 3 } : State).len.toNat < s.negoff.toNat + 4 * ({ s with nver := 3 } : State).nver.toNat := by decide
theorem witness_RegularRoundTrip : ({ State.reset with pnum := 5 } : State).Legal ∧
    ∃ t, exec (.pktSerReg .server) { State.reset with pnum := 5 } = .next t ∧ t.mode = .ready ∧
      t.cur.toNat ≤ ({ t with cur := 0 } : State).len.toNat ∧ ∀ a, ({ t with cur := 0 } : State).byte a = t.byte a :=
  ⟨by constructor <;> decide, _, rfl, rfl, by decide, fun _ => rfl⟩
theorem witness_RegularRoundTrip_version :
    let s := withQ039 { State.reset with pnum := 5, pinfo := 1, ver := 0x39333051 }
    s.pinfo.getLsbD 0 = true ∧ s.supported s.ver.toNat = true ∧
      (after (.pktSerReg .client) s).map (fun t => t.mode) = some .ready := by decide
theorem witness_ResetRoundTrip : resetRegisters.Legal ∧
    ∃ t, exec .pktSerRst resetRegisters = .next t ∧ t.mode = .ready ∧
      t.cur.toNat ≤ ({ t with cur := 0 } : State).len.toNat ∧ ∀ a, ({ t with cur := 0 } : State).byte a = t.byte a :=
  ⟨by constructor <;> decide, _, rfl, rfl, by decide, fun _ => rfl⟩
theorem witness_NegotiationRoundTrip : (withQ039 State.reset).Legal ∧
    ∃ t, exec .pktSerNeg (withQ039 State.reset) = .next t ∧ t.mode = .ready ∧ ({ t with cur := 0 } : State).len = t.cur ∧
      ∀ a, ({ t with cur := 0 } : State).byte a = t.byte a :=
  ⟨by constructor <;> decide, _, rfl, rfl, rfl, fun _ => rfl⟩

end Sys2Proof.Tests
end

section
/-! The reset state is legal (10_state.md R37): every register is 0 and both tables are empty, so each invariant holds
by its own field of `State.initial`, for any parameters within the bounds of 00_scope.md R5. -/

namespace Sys2Proof.Machine

/-- The values of the spec's test vectors are within the bounds of R5. -/
theorem Params_vectors_ok : Config.Params.vectors.ok := by decide

@[simp] theorem Memory_wf_nil (size : Nat) : Memory.wf size [] = true := rfl
@[simp] theorem RangeColumn_wf_nil (size : Nat) : RangeColumn.wf size [] = true := rfl

/-- The reset input always leaves a legal state (R37, R260): nothing but the parameters' bounds is needed. -/
theorem initial_legal {cfg : Config.Params} (epoch : Nat) (pending : List HostAction) (h : cfg.ok) :
    (State.initial cfg epoch pending).Legal where
  params := h
  length := Nat.zero_le _
  ranges := Nat.zero_le _
  status := ⟨fun hne => absurd rfl hne, fun hf => nomatch hf⟩
  slots := List.length_replicate
  enables := Nat.two_pow_pos _
  buffer := Memory_wf_nil _
  firsts := RangeColumn_wf_nil _
  lasts := RangeColumn_wf_nil _

/-- Settles O14: `State.reset` is the initial state of the test vectors' parameters (log entry 2). -/
theorem resetStateIsLegal : Obligations.ResetStateIsLegal :=
  ⟨initial_legal 0 [] Params_vectors_ok, fun _ epoch pending h => initial_legal epoch pending h⟩

end Sys2Proof.Machine
end

section
/-! What an instruction can do to the storage of the block: BUF, LEN, CUR, COND and the range table. One case
analysis over the instructions (`rule_effect`) and one over the modes (`exec_cases`) serve every invariant of
10_state.md. -/

namespace Sys2Proof.Machine

/-- `t` has the buffer, the length and the range table of `s`. -/
structure SameStorage (s t : State) : Prop where
  buf : t.buf = s.buf
  len : t.len = s.len
  nranges : t.nranges = s.nranges
  rangeFirst : t.rangeFirst = s.rangeFirst
  rangeLast : t.rangeLast = s.rangeLast

/-- The five things a successful rule of the instruction `i` can do to the storage of `s`. -/
inductive RuleEffect (i : Instr) (s : State) : State → Prop where
  /-- It writes result registers only. -/
  | registers {t : State} (storage : SameStorage s t) (cur : t.cur = s.cur) (cond : t.cond = s.cond) : RuleEffect i s t
  /-- It answers a predicate in COND (10_state.md R28). -/
  | predicate {t : State} (hi : i ∈ predicates) (storage : SameStorage s t) (cur : t.cur = s.cur) : RuleEffect i s t
  /-- It consumes bytes below LEN (40_common.md R115). -/
  | consumes {t : State} (storage : SameStorage s t) (cur : t.cur.toNat ≤ s.len.toNat) (cond : t.cond = s.cond) :
      RuleEffect i s t
  /-- It stores bytes that fit at CUR (20_memory.md R62, R64). -/
  | emits {u : State} {bs : List Byte} (hi : i ∈ serializers) (storage : SameStorage s u) (cur : u.cur = s.cur)
      (cond : u.cond = s.cond) (room : s.cur.toNat + bs.length ≤ s.cfg.bufSize) : RuleEffect i s (u.emitted bs)
  /-- It stores the ranges of an ACK frame that it has parsed (43_ack.md R177). -/
  | storesRanges {t : State} {a : AckFrame} (good : a.Good s s.cur.toNat) (buf : t.buf = s.buf) (len : t.len = s.len)
      (cur : t.cur = BitVec.ofNat 16 a.next) (cond : t.cond = s.cond)
      (nranges : t.nranges = BitVec.ofNat 16 a.ranges.length)
      (rangeFirst : t.rangeFirst = (storeRanges s 0 a.ranges).rangeFirst)
      (rangeLast : t.rangeLast = (storeRanges s 0 a.ranges).rangeLast) : RuleEffect i s t

theorem SameStorage.refl (s : State) : SameStorage s s := ⟨rfl, rfl, rfl, rfl, rfl⟩

/-- A 16-bit register never holds more than the number stored in it. -/
theorem toNat_ofNat16_le (n : Nat) : (BitVec.ofNat 16 n).toNat ≤ n := by
  rw [BitVec.toNat_ofNat]; exact Nat.mod_le _ _

/-- Loading a parsed packet consumes bytes as far as the packet ends (44_packet.md R206). -/
theorem loadPacket_effect (i : Instr) (s : State) (f : Byte) (c : Nat) {p : Parsed} (h : p.next ≤ s.len.toNat) :
    RuleEffect i s (loadPacket f c p s) :=
  .consumes ⟨rfl, rfl, rfl, rfl, rfl⟩ ((toNat_ofNat16_le _).trans h) rfl

/-- Every variant of a packet header ends at or below LEN. -/
theorem flagsRule_effect (i : Instr) {b : FlagsByte} {s t : State} (h : flagsRule b s = .ok t) : RuleEffect i s t := by
  cases b with
  | reset v n pp =>
    obtain ⟨-, p, hp, rfl⟩ := parseVariant_ok h
    obtain ⟨-, hnext, -⟩ := parseReset_ok hp
    exact loadPacket_effect i s _ _ hnext
  | negotiation n pp =>
    obtain ⟨-, p, hp, rfl⟩ := parseVariant_ok h
    obtain ⟨rfl, -⟩ := parseNegotiation_ok hp
    exact loadPacket_effect i s _ _ le_rfl
  | regular v n pp =>
    obtain ⟨-, p, hp, rfl⟩ := parseVariant_ok h
    obtain ⟨hnext, -⟩ := parseRegular_ok hp
    exact loadPacket_effect i s _ _ hnext

theorem frameRule_effect (i : Instr) {b : FrameByte} {s t : State} (h : frameRule b s = .ok t) : RuleEffect i s t := by
  obtain ⟨_, rfl⟩ := frameRule_ok h
  exact .registers ⟨rfl, rfl, rfl, rfl, rfl⟩ rfl rfl

theorem intWidth_effect (i : Instr) {lo hi : Nat} {width code : Nat → Nat} {s t : State}
    (h : intWidth lo hi width code s = .ok t) : RuleEffect i s t := by
  obtain ⟨-, -, rfl⟩ := intWidth_ok h
  exact .registers ⟨rfl, rfl, rfl, rfl, rfl⟩ rfl rfl

theorem codeToWidth_effect (i : Instr) {top : Nat} {width : Nat → Nat} {s t : State}
    (h : codeToWidth top width s = .ok t) : RuleEffect i s t := by
  obtain ⟨-, rfl⟩ := codeToWidth_ok h
  exact .registers ⟨rfl, rfl, rfl, rfl, rfl⟩ rfl rfl

theorem intDecode_effect (i : Instr) {ws : List Nat} {lo : Nat} {s t : State} (h : intDecode ws lo s = .ok t) :
    RuleEffect i s t := by
  obtain ⟨-, hlen, -, rfl⟩ := intDecode_ok h
  exact .consumes ⟨rfl, rfl, rfl, rfl, rfl⟩ ((toNat_ofNat16_le _).trans hlen) rfl

theorem intEncode_effect {i : Instr} (hi : i ∈ serializers) {lo top : Nat} {width code : Nat → Nat} {s t : State}
    (h : intEncode lo top width code s = .ok t) : RuleEffect i s t := by
  obtain ⟨-, -, hroom, rfl⟩ := intEncode_ok h
  exact .emits hi ⟨rfl, rfl, rfl, rfl, rfl⟩ rfl rfl (by rwa [leBytes_length])

theorem ackDecode_effect (i : Instr) {s t : State} (h : ackDecode s = .ok t) : RuleEffect i s t := by
  obtain ⟨a, ha, rfl⟩ := ackDecode_ok h
  obtain ⟨hgood, -⟩ := ackParse_ok ha
  refine .storesRanges hgood ?_ ?_ rfl ?_ rfl rfl rfl
  all_goals rw [storeRanges_eq]; rfl

/-- Every rule that succeeds does one of the five things of `RuleEffect`. -/
theorem rule_effect {i : Instr} {s t : State} (h : rule i s = .ok t) : RuleEffect i s t := by
  cases i with
  | faultAck => cases h; exact .registers (.refl _) rfl rfl
  | pnWidth | sidWidth | offWidth => exact intWidth_effect _ h
  | pnC2w | sidC2w | offC2w => exact codeToWidth_effect _ h
  | pnDec | sidDec | offDec => exact intDecode_effect _ h
  | pnEnc | sidEnc | offEnc => exact intEncode_effect (by decide) h
  | pnNext => obtain ⟨_, rfl⟩ := pnSuccessor_ok h; exact .registers ⟨rfl, rfl, rfl, rfl, rfl⟩ rfl rfl
  | sidNext => obtain ⟨_, rfl⟩ := sidSuccessor_ok h; exact .registers ⟨rfl, rfl, rfl, rfl, rfl⟩ rfl rfl
  | uf16Dec | uf16Enc => cases h; exact .registers ⟨rfl, rfl, rfl, rfl, rfl⟩ rfl rfl
  | ftDec => obtain ⟨-, _, -, _, rfl⟩ := frameDecodeRule_ok h; exact .registers ⟨rfl, rfl, rfl, rfl, rfl⟩ rfl rfl
  | ftEnc =>
    obtain ⟨_, -, hroom, rfl⟩ := frameEncode_ok h
    exact .emits (by decide) ⟨rfl, rfl, rfl, rfl, rfl⟩ rfl rfl hroom
  | ackValidate | ackAcks => cases h; exact .predicate (by decide) ⟨rfl, rfl, rfl, rfl, rfl⟩ rfl
  | ackDec => exact ackDecode_effect _ h
  | ackEnc =>
    obtain ⟨_, -, hroom, rfl⟩ := ackEncode_ok h
    exact .emits (by decide) ⟨rfl, rfl, rfl, rfl, rfl⟩ rfl rfl hroom
  | pktParse sb => obtain ⟨-, _, -, hflags⟩ := packetParseRule_ok h; exact flagsRule_effect _ hflags
  | pktSerReg sb =>
    obtain ⟨_, _, _, hroom, rfl⟩ := serializeRegular_ok h
    exact .emits (by cases sb <;> decide) ⟨rfl, rfl, rfl, rfl, rfl⟩ rfl rfl hroom
  | pktSerRst =>
    obtain ⟨_, hroom, rfl⟩ := serializeReset_ok h
    exact .emits (by decide) ⟨rfl, rfl, rfl, rfl, rfl⟩ rfl rfl hroom
  | pktSerNeg =>
    obtain ⟨hroom, rfl⟩ := serializeNegotiation_ok h
    exact .emits (by decide) ⟨rfl, rfl, rfl, rfl, rfl⟩ rfl rfl hroom
  | verChoose =>
    obtain ⟨-, rfl⟩ := chooseVersion_ok h
    exact .predicate (by decide) ⟨rfl, rfl, rfl, rfl, rfl⟩ rfl
  | ftPadding | ftRstStream | ftConnectionClose | ftGoaway | ftWindowUpdate | ftBlocked | ftStopWaiting | ftPing
  | ftCongestionFeedback x | ftAck n ll u mm | ftStream f d ooo ss =>
    simp only [rule] at h
    exact frameRule_effect _ h
  | pfReset v n pp | pfNegotiation n pp | pfRegular v n pp =>
    simp only [rule] at h
    exact flagsRule_effect _ h

/-- Preparing an instruction writes CMD at most. -/
theorem prepared_eq_withCmd (i : Instr) (s : State) : ∃ w, prepared i s = withCmd w s := by
  unfold prepared
  split
  · exact ⟨_, rfl⟩
  · exact ⟨s.cmd, rfl⟩
  · exact ⟨s.cmd, rfl⟩

/-- Everything an instruction can do, in either mode (40_common.md R111, 60_exceptions.md R233 to R235). -/
inductive ExecCase (i : Instr) (s : State) : State → Prop where
  /-- FAULTED mode drops it. -/
  | dropped : ExecCase i s s
  /-- FAULT_ACK in FAULTED mode. -/
  | acknowledged : ExecCase i s (returnFromFault s)
  /-- In READY mode it takes a fault. -/
  | faults (e : FaultCode) (w : CommandWord) : ExecCase i s (takeFault e (withCmd w s))
  /-- In READY mode its rule succeeds. -/
  | completes {t : State} (w : CommandWord) (hrule : rule i (withCmd w s) = .ok t) : ExecCase i s t

theorem exec_cases {i : Instr} {s t : State} (h : exec i s = .next t) : ExecCase i s t := by
  cases hm : s.mode with
  | ready =>
    obtain ⟨w, hw⟩ := prepared_eq_withCmd i s
    have hcases := exec_ready_cases hm h
    rw [hw] at hcases
    obtain hok | ⟨e, -, rfl⟩ := hcases
    · exact .completes w hok
    · exact .faults e w
  | faulted =>
    by_cases hi : i = .faultAck
    · subst hi
      simp only [exec, execFaultAck, hm] at h
      cases h
      exact .acknowledged
    · rw [exec_faulted i s hm hi] at h
      cases h
      exact .dropped

/-! ## COND -/

theorem RuleEffect.cond_eq {i : Instr} {s t : State} (h : RuleEffect i s t) (hi : i ∉ predicates) : t.cond = s.cond := by
  cases h with
  | registers _ _ cond => exact cond
  | predicate hp => exact absurd hp hi
  | consumes _ _ cond => exact cond
  | emits _ _ _ cond => exact cond
  | storesRanges _ _ _ _ cond => exact cond

/-- Settles O21: of the five effects of a rule only the predicates' reaches COND. -/
theorem onlyPredicatesWriteCond : Obligations.OnlyPredicatesWriteCond := by
  intro i s t h hi
  cases exec_cases h with
  | dropped => rfl
  | acknowledged => rfl
  | faults e w => rfl
  | completes w hrule => exact (rule_effect hrule).cond_eq hi

/-! ## CUR, LEN and BUF -/

/-- A rule that moves CUR moves it to at most LEN, or past bytes that fit in BUF. -/
theorem RuleEffect.cur_le {i : Instr} {s t : State} (h : RuleEffect i s t) (hlen : s.len.toNat ≤ s.cfg.bufSize) :
    t.cur = s.cur ∨ t.cur.toNat ≤ s.cfg.bufSize := by
  cases h with
  | registers _ cur => exact .inl cur
  | predicate _ _ cur => exact .inl cur
  | consumes _ cur => exact .inr (cur.trans hlen)
  | emits _ _ cur _ room => exact .inr (by rw [emitted_cur, cur]; exact (toNat_ofNat16_le _).trans room)
  | storesRanges good _ _ cur =>
    obtain ⟨-, hnext⟩ := good.next
    exact .inr (by rw [cur]; exact ((toNat_ofNat16_le _).trans hnext).trans hlen)

/-- Only the serializers write LEN or BUF (20_memory.md R64). -/
theorem RuleEffect.len_buf_eq {i : Instr} {s t : State} (h : RuleEffect i s t) (hi : i ∉ serializers) :
    t.len = s.len ∧ t.buf = s.buf := by
  cases h with
  | registers storage => exact ⟨storage.len, storage.buf⟩
  | predicate _ storage => exact ⟨storage.len, storage.buf⟩
  | consumes storage => exact ⟨storage.len, storage.buf⟩
  | emits hs => exact absurd hs hi
  | storesRanges _ buf len => exact ⟨len, buf⟩

/-- LEN after bytes that fit in BUF are stored at CUR: the larger of LEN and the new CUR (10_state.md R23). -/
theorem emitted_len_toNat {s : State} {bs : List Byte} {size : Nat} (hsize : size ≤ 65535)
    (hroom : s.cur.toNat + bs.length ≤ size) :
    (s.emitted bs).len.toNat = max s.len.toNat (s.cur.toNat + bs.length) := by
  rw [emitted_len, BitVec.toNat_ofNat]
  exact Nat.mod_eq_of_lt (by omega)

/-- LEN never falls and stays within BUF. -/
theorem RuleEffect.len_bounds {i : Instr} {s t : State} (h : RuleEffect i s t) (hsize : s.cfg.bufSize ≤ 65535)
    (hlen : s.len.toNat ≤ s.cfg.bufSize) : s.len.toNat ≤ t.len.toNat ∧ t.len.toNat ≤ s.cfg.bufSize := by
  cases h with
  | registers storage => rw [storage.len]; exact ⟨le_rfl, hlen⟩
  | predicate _ storage => rw [storage.len]; exact ⟨le_rfl, hlen⟩
  | consumes storage => rw [storage.len]; exact ⟨le_rfl, hlen⟩
  | emits _ storage cur _ room =>
    rw [emitted_len_toNat hsize (by rwa [cur]), storage.len, cur]
    omega
  | storesRanges _ _ len => rw [len]; exact ⟨le_rfl, hlen⟩

/-- Settles O22: by the effects of the rules; a dropped command, FAULT_ACK and a fault leave the storage alone. -/
theorem cursorLengthAndBufferUse : Obligations.CursorLengthAndBufferUse := by
  refine ⟨fun i s t hs h => ?_, fun i s t h hi => ?_, fun i s t hs h => ?_⟩
  · cases exec_cases h with
    | dropped => exact .inl rfl
    | acknowledged => exact .inl rfl
    | faults e w => exact .inl rfl
    | completes w hrule => exact (rule_effect hrule).cur_le hs.length
  · cases exec_cases h with
    | dropped => exact ⟨rfl, rfl, fun _ => rfl⟩
    | acknowledged => exact ⟨rfl, rfl, fun _ => rfl⟩
    | faults e w => exact ⟨rfl, rfl, fun _ => rfl⟩
    | completes w hrule =>
      obtain ⟨hlen, hbuf⟩ := (rule_effect hrule).len_buf_eq hi
      exact ⟨hlen, hbuf, State.byte_congr hbuf (rule_keeps hrule).epoch⟩
  · obtain ⟨⟨-, hsize⟩, -, -⟩ := hs.params
    cases exec_cases h with
    | dropped => exact le_rfl
    | acknowledged => exact le_rfl
    | faults e w => exact le_rfl
    | completes w hrule => exact ((rule_effect hrule).len_bounds hsize hs.length).1

/-! ## The host's settings -/

/-- Settles O23: no rule writes them (`rule_keeps`), and neither do the issue and fault procedures. -/
theorem noInstructionWritesTheHostsSettings : Obligations.NoInstructionWritesTheHostsSettings := by
  intro i s t h
  cases exec_cases h with
  | dropped => exact ⟨rfl, rfl, rfl, rfl, rfl, rfl, rfl⟩
  | acknowledged => exact ⟨rfl, rfl, rfl, rfl, rfl, rfl, rfl⟩
  | faults e w => exact ⟨rfl, rfl, rfl, rfl, rfl, rfl, rfl⟩
  | completes w hrule =>
    obtain ⟨-, -, -, ridx, supven, supv, cfg, epoch, pending, answer⟩ := rule_keeps hrule
    exact ⟨ridx, supv, supven, cfg, epoch, pending, answer⟩

end Sys2Proof.Machine
end

section
/-! The register port (10_state.md R34). The model's decoder of indices, `regAt`, is tied to the obligations' register
map once (`regAt_eq_some_iff`, `registerMap_eq`); reads and writes of the port then go through the registers. -/

namespace Sys2Proof.Machine

/-! ## The map of R34 as a list of registers -/

/-- The indices of R34 with the register at each, but for the version slots. -/
def fixedRegisters : List (Nat × Reg) :=
  [(0x00, .cmd), (0x01, .status), (0x02, .cur), (0x03, .len), (0x08, .val), (0x09, .wid), (0x0A, .code), (0x0B, .cond),
   (0x10, .tb), (0x11, .finfo), (0x12, .fwid), (0x18, .largest), (0x19, .lowest), (0x1A, .delay), (0x1B, .nranges),
   (0x1C, .ridx), (0x1D, .rfirst), (0x1E, .rlast), (0x1F, .aemit), (0x20, .pflags), (0x21, .pkind), (0x22, .cid),
   (0x23, .pinfo), (0x24, .ver), (0x25, .pnum), (0x26, .pnlen), (0x28, .nonce0), (0x29, .nonce1), (0x2A, .nonce2),
   (0x2B, .nonce3), (0x2C, .afam), (0x2D, .aport), (0x2E, .addr0), (0x2F, .addr1), (0x30, .nver), (0x31, .negoff),
   (0x32, .versel), (0x33, .supven)]

/-- All registers of a block with `n` version slots. -/
def registerList (n : Nat) : List (Nat × Reg) := fixedRegisters ++ (List.range n).map fun j => (0x40 + j, .supv j)

theorem mem_registerList_fixed {n : Nat} {e : Nat × Reg} (h : e ∈ fixedRegisters) : e ∈ registerList n :=
  List.mem_append_left _ h

theorem mem_registerList_supv {n j : Nat} (h : j < n) : (0x40 + j, Reg.supv j) ∈ registerList n :=
  List.mem_append_right _ (List.mem_map.2 ⟨j, List.mem_range.2 h, rfl⟩)

theorem regAt_supv {n j : Nat} {idx : BitVec 8} (h : idx.toNat = 0x40 + j) (hj : j < n) :
    regAt n idx = some (.supv j) := by
  unfold regAt
  split
  case h_39 => rw [if_pos (by omega), h, Nat.add_sub_cancel_left]
  all_goals omega

theorem regAt_fixed (n : Nat) {e : Nat × Reg} (he : e ∈ fixedRegisters) {idx : BitVec 8} (h : idx.toNat = e.1) :
    regAt n idx = some e.2 := by
  unfold regAt
  rw [h]
  fin_cases he <;> rfl

/-- The decoder of indices finds exactly the listed registers. -/
theorem regAt_eq_some_iff {n : Nat} {idx : BitVec 8} {r : Reg} :
    regAt n idx = some r ↔ (idx.toNat, r) ∈ registerList n := by
  constructor
  · intro h
    unfold regAt at h
    split at h
    case h_39 =>
      split at h
      case isTrue hj =>
        obtain ⟨hlow, hhigh⟩ := hj
        cases h
        have hmem := mem_registerList_supv (n := n) (j := idx.toNat - 0x40) (by omega)
        rwa [Nat.add_sub_cancel' hlow] at hmem
      case isFalse => cases h
    all_goals
      rename_i hidx
      cases h
      rw [hidx]
      exact mem_registerList_fixed (by decide)
  · intro h
    rcases List.mem_append.1 h with hfixed | hslot
    · exact regAt_fixed n hfixed rfl
    · obtain ⟨j, hj, hidx⟩ := List.mem_map.1 hslot
      obtain ⟨hk, rfl⟩ := Prod.mk.inj hidx
      exact regAt_supv hk.symm (List.mem_range.1 hj)

/-! ## What a register reads -/

/-- STATUS as R26 writes it. -/
theorem toNat_statusWord (mode : Mode) (err : BitVec 8) :
    (statusWord mode err).toNat = 256 * err.toNat + if mode = .faulted then 1 else 0 := by
  have herr := err.isLt
  cases mode
  all_goals
    simp only [statusWord, faultedBit, BitVec.toNat_ofNat, reduceCtorEq, if_true, if_false]
    omega

/-- The obligations' register map is the list of registers with their values. -/
theorem registerMap_eq (s : State) :
    registerMap s = (registerList s.cfg.nSupv).map fun e => (e.1, (regValue s e.2).toNat) := by
  unfold registerMap registerList
  rw [List.map_append, List.map_map]
  refine congrArg₂ (· ++ ·) ?_ (List.map_congr_left fun j _ => ?_)
  · simp only [fixedRegisters, List.map_cons, List.map_nil, regValue, toNat_statusWord, BitVec.toNat_setWidth_of_le,
      apply_ite BitVec.toNat, Nat.reduceLeDiff]
    rfl
  · exact congrArg (Prod.mk _) (BitVec.toNat_setWidth_of_le (b := s.supvAt j) (by decide : 32 ≤ 64)).symm

/-- An entry of the register map is the value of the register that the decoder finds at its index. -/
theorem mem_registerMap_iff {s : State} {idx : BitVec 8} {x : Nat} :
    (idx.toNat, x) ∈ registerMap s ↔ ∃ r, regAt s.cfg.nSupv idx = some r ∧ x = (regValue s r).toNat := by
  rw [registerMap_eq, List.mem_map]
  constructor
  · rintro ⟨⟨k, r⟩, hmem, he⟩
    obtain ⟨rfl, rfl⟩ := Prod.mk.inj he
    exact ⟨r, regAt_eq_some_iff.2 hmem, rfl⟩
  · rintro ⟨r, hr, rfl⟩
    exact ⟨(idx.toNat, r), regAt_eq_some_iff.1 hr, rfl⟩

/-- The port's value at an index is the value of the register that the decoder finds there, or 0. -/
theorem portValue_eq (idx : BitVec 8) (s : State) :
    portValue idx s = (regAt s.cfg.nSupv idx).elim 0 (regValue s) := by
  unfold portValue
  split
  case h_1 e hfind =>
    obtain ⟨k, x⟩ := e
    obtain rfl : k = idx.toNat := by simpa using List.find?_some hfind
    obtain ⟨r, hr, rfl⟩ := mem_registerMap_iff.1 (List.mem_of_find?_eq_some hfind)
    rw [hr, BitVec.ofNat_toNat, BitVec.setWidth_eq]
    rfl
  case h_2 hfind =>
    cases hr : regAt s.cfg.nSupv idx with
    | none => rfl
    | some r => simpa using List.find?_eq_none.1 hfind _ (mem_registerMap_iff.2 ⟨r, hr, rfl⟩)

theorem portValue_of_regAt {idx : BitVec 8} {s : State} {r : Reg} (h : regAt s.cfg.nSupv idx = some r) :
    portValue idx s = regValue s r := by rw [portValue_eq, h]; rfl

theorem portValue_of_regAt_none {idx : BitVec 8} {s : State} (h : regAt s.cfg.nSupv idx = none) :
    portValue idx s = 0 := by rw [portValue_eq, h]; rfl

/-- The model's own fields show in no register. -/
@[simp] theorem regValue_acted (rest : List HostAction) (s : State) (r : Reg) :
    regValue (acted rest s) r = regValue s r := by cases r <;> rfl

/-! ## Reads -/

theorem step_regRead {s : State} {idx : BitVec 8} {rest : List HostAction} (h : s.pending = .regRead idx :: rest) :
    step s = .next { s with pending := rest, answer := .register (portValue idx s) } := by
  rw [step_act h, portValue_eq]
  simp only [act, hostRegRead, withAnswer]
  cases regAt s.cfg.nSupv idx with
  | none => rfl
  | some r => cases r <;> rfl

/-- Settles O12: the map has one value per index, that of the register which the decoder finds there. -/
theorem registerReads : Obligations.RegisterReads := by
  intro s idx rest h
  refine ⟨step_regRead h, fun e he hidx => ?_, fun hnone => ?_⟩
  · obtain ⟨k, x⟩ := e
    cases hidx
    obtain ⟨r, hr, rfl⟩ := mem_registerMap_iff.1 he
    rw [step_regRead h, portValue_of_regAt hr, BitVec.ofNat_toNat, BitVec.setWidth_eq]
  · have hr : regAt s.cfg.nSupv idx = none := by
      rw [Option.eq_none_iff_forall_ne_some]
      exact fun r hr => hnone _ (mem_registerMap_iff.2 ⟨r, hr, rfl⟩) rfl
    rw [step_regRead h, portValue_of_regAt_none hr]

/-! ## Writes -/

/-- Storing and answering are independent: the model's own fields are written beside every register. -/
theorem withAnswer_regStore (rest : List HostAction) (s : State) (v : PortWord) (r : Reg) :
    withAnswer .nothing (regStore { s with pending := rest } v r) = regStore (acted rest s) v r := by
  cases r
  case rfirst | rlast => exact apply_ite (withAnswer .nothing) _ _ _
  all_goals rfl

/-- A write to any index but CMD's stores into the register there, if any. -/
theorem step_regWrite {s : State} {idx : BitVec 8} {v : PortWord} {rest : List HostAction}
    (h : s.pending = .regWrite idx v :: rest) (hidx : idx ≠ 0x00) :
    step s = .next ((regAt s.cfg.nSupv idx).elim (acted rest s) (regStore (acted rest s) v)) := by
  rw [step_act h, act_regWrite _ _ hidx]
  simp only [hostRegWrite]
  cases regAt s.cfg.nSupv idx with
  | none => rfl
  | some r => exact congrArg _ (withAnswer_regStore rest s v r)

theorem step_regWrite_some {s : State} {idx : BitVec 8} {v : PortWord} {rest : List HostAction} {r : Reg}
    (h : s.pending = .regWrite idx v :: rest) (hidx : idx ≠ 0x00) (hr : regAt s.cfg.nSupv idx = some r) :
    step s = .next (regStore (acted rest s) v r) := by rw [step_regWrite h hidx, hr]; rfl

/-- A host write of a register changes no parameter, no reset count and not what the host does next. -/
theorem regStore_keeps (s : State) (v : PortWord) (r : Reg) :
    (regStore s v r).cfg = s.cfg ∧ (regStore s v r).epoch = s.epoch ∧ (regStore s v r).pending = s.pending := by
  cases r
  case rfirst | rlast => simp only [regStore]; split <;> exact ⟨rfl, rfl, rfl⟩
  all_goals exact ⟨rfl, rfl, rfl⟩

/-- The width of a register that is plain storage (10_state.md R34). -/
def Reg.plainWidth : Reg → Option Nat
  | .pinfo | .code => some 3
  | .cond => some 1
  | .pkind => some 2
  | .wid | .pnlen => some 4
  | .tb | .pflags => some 8
  | .fwid => some 12
  | .cur | .finfo | .ridx | .aemit | .afam | .aport | .nver | .negoff => some 16
  | .ver | .versel => some 32
  | .largest | .lowest | .pnum => some 48
  | .val | .delay | .cid | .nonce0 | .nonce1 | .nonce2 | .nonce3 | .addr0 | .addr1 => some 64
  | .cmd | .status | .len | .nranges | .rfirst | .rlast | .supven | .supv _ => none

/-- The obligations' list of plain registers names these, by index and width. -/
theorem plainRegisters_fixed :
    ∀ p ∈ plainRegisters, ∃ e ∈ fixedRegisters, e.1 = p.1 ∧ e.2.plainWidth = some p.2 ∧ p.1 < 256 ∧ p.1 ≠ 0 := by
  decide

/-- Truncating to `w` bits and zero-extending again is the remainder by `2 ^ w` (00_scope.md R8). -/
theorem setWidth_setWidth_eq_mod (v : PortWord) (w : Nat) :
    (v.setWidth w).setWidth 64 = BitVec.ofNat 64 (v.toNat % 2 ^ w) := by
  apply BitVec.eq_of_toNat_eq
  rw [BitVec.toNat_setWidth, BitVec.toNat_setWidth, BitVec.toNat_ofNat]

theorem eq_ofNat_mod (v : PortWord) : v = BitVec.ofNat 64 (v.toNat % 2 ^ 64) := by
  rw [Nat.mod_eq_of_lt v.isLt, BitVec.ofNat_toNat, BitVec.setWidth_eq]

/-- A plain register reads back what was stored, truncated to its width. -/
theorem regValue_regStore_same (s : State) (v : PortWord) {r : Reg} {W : Nat} (h : r.plainWidth = some W) :
    regValue (regStore s v r) r = BitVec.ofNat 64 (v.toNat % 2 ^ W) := by
  cases r
  case cmd | status | len | nranges | rfirst | rlast | supven | supv => cases h
  case val | delay | cid | nonce0 | nonce1 | nonce2 | nonce3 | addr0 | addr1 => cases h; exact eq_ofNat_mod v
  all_goals
    cases h
    exact setWidth_setWidth_eq_mod v _

/-- Every plain register is a field of its own: storing into it shows in no other register, but for RIDX, which moves
the window on RANGE (R31). -/
theorem regValue_regStore_other (s : State) (v : PortWord) {r r' : Reg} {W : Nat} (h : r.plainWidth = some W)
    (hne : r' ≠ r) (hwindow : ¬(r = .ridx ∧ (r' = .rfirst ∨ r' = .rlast))) :
    regValue (regStore s v r) r' = regValue s r' := by
  cases r
  case cmd | status | len | nranges | rfirst | rlast | supven | supv => cases h
  case ridx =>
    cases r'
    case ridx => exact absurd rfl hne
    case rfirst => exact absurd ⟨rfl, .inl rfl⟩ hwindow
    case rlast => exact absurd ⟨rfl, .inr rfl⟩ hwindow
    all_goals rfl
  all_goals
    cases r'
    all_goals first | rfl | exact absurd rfl hne

/-- A plain register is no part of BUF or RANGE. -/
theorem regStore_tables (s : State) (v : PortWord) {r : Reg} {W : Nat} (h : r.plainWidth = some W) :
    (∀ a, (regStore s v r).byte a = s.byte a) ∧
      ∀ k, (regStore s v r).rangeFirstAt k = s.rangeFirstAt k ∧ (regStore s v r).rangeLastAt k = s.rangeLastAt k := by
  cases r
  case cmd | status | len | nranges | rfirst | rlast | supven | supv => cases h
  all_goals exact ⟨fun _ => rfl, fun _ => ⟨rfl, rfl⟩⟩

/-- An index names one register, and a register has one index. -/
theorem fixedRegisters_index_unique {k : Nat} {e : Nat × Reg} (he : e ∈ fixedRegisters) {n : Nat}
    (h : (k, e.2) ∈ registerList n) : k = e.1 := by
  rcases List.mem_append.1 h with hfixed | hslot
  · have hinj : ∀ d ∈ fixedRegisters, ∀ e ∈ fixedRegisters, d.2 = e.2 → d.1 = e.1 := by decide
    exact hinj _ hfixed _ he rfl
  · obtain ⟨j, -, hj⟩ := List.mem_map.1 hslot
    have hno : ∀ e ∈ fixedRegisters, ∀ j, e.2 ≠ .supv j := by
      intro e he j
      fin_cases he <;> exact Reg.noConfusion
    exact absurd (Prod.mk.inj hj).2.symm (hno e he j)

/-- Settles O10: the write stores into the one register at the index, and every other index reads another register. -/
theorem plainRegistersStoreTruncatedValues : Obligations.PlainRegistersStoreTruncatedValues := by
  intro s idx W v rest hplain h
  obtain ⟨⟨k, r⟩, he, rfl, hwidth, hlt, hne⟩ := plainRegisters_fixed _ hplain
  dsimp only at he hwidth hlt hne h ⊢
  have hidx : (BitVec.ofNat 8 k).toNat = k := by rw [BitVec.toNat_ofNat]; exact Nat.mod_eq_of_lt hlt
  have hr (n : Nat) : regAt n (BitVec.ofNat 8 k) = some r := regAt_fixed n he hidx
  have hcmd : BitVec.ofNat 8 k ≠ 0x00 := fun h0 => hne (by rw [← hidx, h0]; rfl)
  obtain ⟨hcfg, -, hpending⟩ := regStore_keeps (acted rest s) v r
  obtain ⟨hbyte, hrange⟩ := regStore_tables (acted rest s) v hwidth
  refine ⟨_, step_regWrite_some h hcmd (hr _), hpending, ?_, fun j hj hwindow => ?_, hbyte, hrange⟩
  · rw [portValue_of_regAt (hr _), regValue_regStore_same _ v hwidth]
  · rw [portValue_eq, portValue_eq, hcfg]
    show (regAt s.cfg.nSupv j).elim _ _ = _
    cases hr' : regAt s.cfg.nSupv j with
    | none => rfl
    | some r' =>
      have hmem := regAt_eq_some_iff.1 hr'
      have hother : r' ≠ r := fun h' => hj (fixedRegisters_index_unique he (h' ▸ hmem))
      refine (regValue_regStore_other (acted rest s) v hwidth hother ?_).trans (regValue_acted rest s r')
      rintro ⟨rfl, hr'⟩
      have hk : k = 0x1C :=
        fixedRegisters_index_unique (n := 0) (e := (0x1C, .ridx)) (by decide) (mem_registerList_fixed he)
      refine hwindow ⟨hk, ?_⟩
      rcases hr' with rfl | rfl
      · exact .inl (BitVec.eq_of_toNat_eq (fixedRegisters_index_unique (e := (0x1D, .rfirst)) (by decide) hmem))
      · exact .inr (BitVec.eq_of_toNat_eq (fixedRegisters_index_unique (e := (0x1E, .rlast)) (by decide) hmem))

/-! ## The registers with their own write rule -/

/-- A column of RANGE after a write of `v` to its window register (10_state.md R31). -/
def windowStore (s : State) (v : PortWord) (m : RangeColumn) : RangeColumn :=
  if s.ridx.toNat < s.cfg.maxRanges then tableSet m s.ridx.toNat (v.setWidth 48) else m

theorem regStore_rfirst (s : State) (v : PortWord) :
    regStore s v .rfirst = { s with rangeFirst := windowStore s v s.rangeFirst } := by
  simp only [regStore, windowStore]
  split <;> rfl

theorem regStore_rlast (s : State) (v : PortWord) :
    regStore s v .rlast = { s with rangeLast := windowStore s v s.rangeLast } := by
  simp only [regStore, windowStore]
  split <;> rfl

/-- The window writes `RANGE[RIDX]` alone, and nothing where RIDX is at or above MAX_RANGES. -/
theorem getD_windowStore (s : State) (v : PortWord) (m : RangeColumn) (k : Nat) (x : BitVec 48) :
    (tableGet (windowStore s v m) k).getD x =
      if k = s.ridx.toNat ∧ s.ridx.toNat < s.cfg.maxRanges then BitVec.ofNat 48 v.toNat else (tableGet m k).getD x := by
  unfold windowStore
  by_cases hridx : s.ridx.toNat < s.cfg.maxRanges
  · by_cases hk : k = s.ridx.toNat
    · rw [if_pos hridx, if_pos ⟨hk, hridx⟩, hk, tableGet_tableSet_same, BitVec.ofNat_toNat]; rfl
    · rw [if_pos hridx, if_neg (fun h => hk h.1), tableGet_tableSet_other _ _ hk]
  · rw [if_neg hridx, if_neg (fun h => hridx h.2)]

/-- LEN saturates at BUF_SIZE (R23). -/
theorem regStore_len (s : State) (v : PortWord) :
    regStore s v .len = { s with len := BitVec.ofNat 16 (min (v.toNat % 2 ^ 16) s.cfg.bufSize) } := by
  simp only [regStore, BitVec.toNat_setWidth]

/-- NRANGES saturates at MAX_RANGES (R30). -/
theorem regStore_nranges (s : State) (v : PortWord) :
    regStore s v .nranges = { s with nranges := BitVec.ofNat 16 (min (v.toNat % 2 ^ 16) s.cfg.maxRanges) } := by
  simp only [regStore, BitVec.toNat_setWidth]

theorem regStore_supv (s : State) (v : PortWord) (j : Nat) :
    regStore s v (.supv j) = { s with supv := s.supv.set j (BitVec.ofNat 32 v.toNat) } := by
  simp only [regStore, BitVec.ofNat_toNat]

/-- No register stands at an index that is neither listed nor a version slot's. -/
theorem regAt_eq_none {n : Nat} {idx : BitVec 8} (hfixed : idx.toNat ∉ fixedRegisters.map Prod.fst)
    (hslot : ¬(0x40 ≤ idx.toNat ∧ idx.toNat < 0x40 + n)) : regAt n idx = none := by
  rw [Option.eq_none_iff_forall_ne_some]
  intro r hr
  rcases List.mem_append.1 (regAt_eq_some_iff.1 hr) with h | h
  · exact hfixed (List.mem_map.2 ⟨_, h, rfl⟩)
  · obtain ⟨j, hj, hidx⟩ := List.mem_map.1 h
    obtain ⟨hk, -⟩ := Prod.mk.inj hidx
    rw [List.mem_range] at hj
    exact hslot (by omega)

/-- The listed indices are those of the plain registers and of the seven others. -/
theorem fixedRegisters_plain_or_special : ∀ k ∈ fixedRegisters.map Prod.fst,
    k ∈ plainRegisters.map Prod.fst ∨ k ∈ [0x00, 0x01, 0x03, 0x1B, 0x1D, 0x1E, 0x33] := by decide

/-- Settles O11: each clause is the write to the register at the index, by that register's own rule. -/
theorem registersWithTheirOwnWriteRule : Obligations.RegistersWithTheirOwnWriteRule := by
  intro s idx v rest h
  refine ⟨?_, ?_, ?_, ?_, ?_, ?_, fun j hidx hj _ => ?_, fun hplain hspecial hslot => ?_⟩
  · rintro rfl
    exact step_regWrite_some (r := .status) h (by decide) rfl
  · rintro rfl
    rw [step_regWrite_some (r := .len) h (by decide) rfl, regStore_len]
    rfl
  · rintro rfl
    rw [step_regWrite_some (r := .nranges) h (by decide) rfl, regStore_nranges]
    rfl
  · rintro rfl
    exact step_regWrite_some (r := .supven) h (by decide) rfl
  · rintro rfl
    have hstep := step_regWrite_some (r := .rfirst) h (by decide) rfl
    rw [regStore_rfirst] at hstep
    exact ⟨_, hstep, rfl, rfl, fun k => ⟨rfl, getD_windowStore (acted rest s) v _ k _⟩⟩
  · rintro rfl
    have hstep := step_regWrite_some (r := .rlast) h (by decide) rfl
    rw [regStore_rlast] at hstep
    exact ⟨_, hstep, rfl, rfl, fun k => ⟨rfl, getD_windowStore (acted rest s) v _ k _⟩⟩
  · have hcmd : idx ≠ 0x00 := by
      rintro rfl
      have hzero : (0x00 : BitVec 8).toNat = 0 := rfl
      omega
    rw [step_regWrite_some h hcmd (regAt_supv hidx hj), regStore_supv]
    rfl
  · have hcmd : idx ≠ 0x00 := by
      rintro rfl
      exact hspecial (by decide)
    have hnone : regAt s.cfg.nSupv idx = none :=
      regAt_eq_none (fun hk => (fixedRegisters_plain_or_special _ hk).elim hplain hspecial) hslot
    rw [step_regWrite h hcmd, hnone]
    exact ⟨rfl, portValue_of_regAt_none hnone⟩

end Sys2Proof.Machine
end

section
/-! Every step keeps the state legal (10_state.md R23, R26, R30, R33): the instructions by the effects of their rules,
the ports and the reset input by what they write. -/

namespace Sys2Proof.Machine

/-! ## Instructions -/

/-- Where a rule has written nothing of `RuleKeeps`, legality is a matter of LEN, NRANGES and the stored tables. -/
theorem State.Legal.of_ruleKeeps {s t : State} (h : s.Legal) (keeps : RuleKeeps s t)
    (length : t.len.toNat ≤ s.cfg.bufSize) (ranges : t.nranges.toNat ≤ s.cfg.maxRanges)
    (buffer : Memory.wf s.cfg.bufSize t.buf = true) (firsts : RangeColumn.wf s.cfg.maxRanges t.rangeFirst = true)
    (lasts : RangeColumn.wf s.cfg.maxRanges t.rangeLast = true) : t.Legal := by
  obtain ⟨mode, err, -, -, supven, supv, cfg, -, -, -⟩ := keeps
  constructor
  case params => rw [cfg]; exact h.params
  case length => rw [cfg]; exact length
  case ranges => rw [cfg]; exact ranges
  case status => rw [err, mode]; exact h.status
  case slots => rw [supv, cfg]; exact h.slots
  case enables => rw [supven, cfg]; exact h.enables
  case buffer => rw [cfg]; exact buffer
  case firsts => rw [cfg]; exact firsts
  case lasts => rw [cfg]; exact lasts

theorem State.Legal.of_sameStorage {s t : State} (h : s.Legal) (keeps : RuleKeeps s t) (storage : SameStorage s t) :
    t.Legal := by
  obtain ⟨buf, len, nranges, rangeFirst, rangeLast⟩ := storage
  exact h.of_ruleKeeps keeps (by rw [len]; exact h.length) (by rw [nranges]; exact h.ranges)
    (by rw [buf]; exact h.buffer) (by rw [rangeFirst]; exact h.firsts) (by rw [rangeLast]; exact h.lasts)

/-- A successful rule keeps the state legal: what it stores was checked to fit in BUF, and an ACK frame has at most 256
ranges, the least that MAX_RANGES can be (00_scope.md R5). -/
theorem rule_legal {i : Instr} {s t : State} (h : s.Legal) (ht : rule i s = .ok t) : t.Legal := by
  have keeps := rule_keeps ht
  have heffect := rule_effect ht
  obtain ⟨⟨-, hsize⟩, ⟨hmax, -⟩, -⟩ := h.params
  obtain ⟨-, hlen⟩ := heffect.len_bounds hsize h.length
  cases heffect with
  | registers storage => exact h.of_sameStorage keeps storage
  | predicate _ storage => exact h.of_sameStorage keeps storage
  | consumes storage => exact h.of_sameStorage keeps storage
  | emits _ storage cur _ room =>
    obtain ⟨buf, -, nranges, rangeFirst, rangeLast⟩ := storage
    refine h.of_ruleKeeps keeps hlen (by rw [emitted_nranges, nranges]; exact h.ranges) ?_
      (by rw [emitted_rangeFirst, rangeFirst]; exact h.firsts) (by rw [emitted_rangeLast, rangeLast]; exact h.lasts)
    rw [emitted_buf, buf, cur]
    exact memPut_wf _ h.buffer room
  | storesRanges good buf _ _ _ nranges rangeFirst rangeLast =>
    have hcount := good.count.trans hmax
    obtain ⟨hfirsts, hlasts⟩ := storeRanges_wf _ (by rwa [Nat.zero_add]) h.firsts h.lasts
    refine h.of_ruleKeeps keeps hlen ?_ (by rw [buf]; exact h.buffer) (by rw [rangeFirst]; exact hfirsts)
      (by rw [rangeLast]; exact hlasts)
    rw [nranges]
    exact (toNat_ofNat16_le _).trans hcount

theorem withCmd_legal {s : State} (h : s.Legal) (w : CommandWord) : (withCmd w s).Legal :=
  ⟨h.params, h.length, h.ranges, h.status, h.slots, h.enables, h.buffer, h.firsts, h.lasts⟩

/-- A fault sets MODE and a nonzero ERR together (60_exceptions.md R233). -/
theorem takeFault_legal {s : State} (h : s.Legal) (e : FaultCode) : (takeFault e s).Legal :=
  have status : faultNumber e ≠ 0 ↔ Mode.faulted = .faulted := ⟨fun _ => rfl, fun _ => faultNumber_ne_zero e⟩
  ⟨h.params, h.length, h.ranges, status, h.slots, h.enables, h.buffer, h.firsts, h.lasts⟩

/-- The return from a fault clears both (R234). -/
theorem returnFromFault_legal {s : State} (h : s.Legal) : (returnFromFault s).Legal :=
  have status : (0 : BitVec 8) ≠ 0 ↔ Mode.ready = .faulted := by decide
  ⟨h.params, h.length, h.ranges, status, h.slots, h.enables, h.buffer, h.firsts, h.lasts⟩

theorem exec_legal {i : Instr} {s t : State} (h : s.Legal) (ht : exec i s = .next t) : t.Legal ∧ t.cfg = s.cfg := by
  obtain ⟨-, -, -, hcfg, -⟩ := noInstructionWritesTheHostsSettings i s t ht
  refine ⟨?_, hcfg⟩
  cases exec_cases ht with
  | dropped => exact h
  | acknowledged => exact returnFromFault_legal h
  | faults e w => exact takeFault_legal (withCmd_legal h w) e
  | completes w hrule => exact rule_legal (withCmd_legal h w) hrule

/-- A word that decodes to no instruction is dropped or takes a fault (30_encoding.md R83). -/
theorem illegalCommand_legal {w : CommandWord} {s t : State} (h : s.Legal) (ht : illegalCommand w s = .next t) :
    t.Legal ∧ t.cfg = s.cfg := by
  unfold illegalCommand at ht
  cases hm : s.mode with
  | ready =>
    rw [command_ready hm] at ht
    cases ht
    exact ⟨takeFault_legal (withCmd_legal h w) _, rfl⟩
  | faulted =>
    rw [command_faulted hm] at ht
    cases ht
    exact ⟨h, rfl⟩

theorem issue_legal {v : PortWord} {s t : State} (h : s.Legal) (ht : issue v s = .next t) :
    t.Legal ∧ t.cfg = s.cfg := by
  cases hd : decodeCommand (v.setWidth 16) with
  | ok i => rw [issue_of_decode hd] at ht; exact exec_legal h ht
  | error e => rw [issue_of_illegal hd] at ht; exact illegalCommand_legal h ht

/-! ## Ports -/

theorem withAnswer_legal {s : State} (h : s.Legal) (a : Answer) : (withAnswer a s).Legal :=
  ⟨h.params, h.length, h.ranges, h.status, h.slots, h.enables, h.buffer, h.firsts, h.lasts⟩

theorem windowStore_wf {s : State} {m : RangeColumn} (v : PortWord) (h : RangeColumn.wf s.cfg.maxRanges m = true) :
    RangeColumn.wf s.cfg.maxRanges (windowStore s v m) = true := by
  unfold windowStore
  split
  case isTrue hridx => exact tableSorted_tableSet hridx _ (Nat.zero_le _) h
  case isFalse => exact h

/-- LEN and NRANGES saturate, SUPVEN keeps its N_SUPV low bits, the window writes below MAX_RANGES, a slot's write keeps
the number of slots; no other register matters to legality. -/
theorem regStore_legal {s : State} (h : s.Legal) (v : PortWord) (r : Reg) : (regStore s v r).Legal := by
  obtain ⟨params, length, ranges, status, slots, enables, buffer, firsts, lasts⟩ := h
  cases r
  case len =>
    rw [regStore_len]
    have hlen := (toNat_ofNat16_le _).trans (Nat.min_le_right (v.toNat % 2 ^ 16) s.cfg.bufSize)
    exact ⟨params, hlen, ranges, status, slots, enables, buffer, firsts, lasts⟩
  case nranges =>
    rw [regStore_nranges]
    have hranges := (toNat_ofNat16_le _).trans (Nat.min_le_right (v.toNat % 2 ^ 16) s.cfg.maxRanges)
    exact ⟨params, length, hranges, status, slots, enables, buffer, firsts, lasts⟩
  case rfirst =>
    rw [regStore_rfirst]
    exact ⟨params, length, ranges, status, slots, enables, buffer, windowStore_wf v firsts, lasts⟩
  case rlast =>
    rw [regStore_rlast]
    exact ⟨params, length, ranges, status, slots, enables, buffer, firsts, windowStore_wf v lasts⟩
  case supven =>
    have hlow : v.toNat % 2 ^ s.cfg.nSupv < 2 ^ s.cfg.nSupv := Nat.mod_lt _ (Nat.two_pow_pos _)
    exact ⟨params, length, ranges, status, slots, (toNat_ofNat16_le _).trans_lt hlow, buffer, firsts, lasts⟩
  case supv j =>
    exact ⟨params, length, ranges, status, List.length_set.trans slots, enables, buffer, firsts, lasts⟩
  all_goals exact ⟨params, length, ranges, status, slots, enables, buffer, firsts, lasts⟩

theorem hostRegWrite_legal {s : State} (h : s.Legal) (idx : BitVec 8) (v : PortWord) :
    (hostRegWrite idx v s).Legal ∧ (hostRegWrite idx v s).cfg = s.cfg := by
  unfold hostRegWrite
  cases regAt s.cfg.nSupv idx with
  | none => exact ⟨withAnswer_legal h _, rfl⟩
  | some r =>
    obtain ⟨hcfg, -, -⟩ := regStore_keeps s v r
    exact ⟨withAnswer_legal (regStore_legal h v r) _, hcfg⟩

/-- The buffer port writes below BUF_SIZE only (20_memory.md R63). -/
theorem hostBufWrite_legal {s : State} (h : s.Legal) (a : BitVec 16) (b : Byte) :
    (hostBufWrite a b s).Legal ∧ (hostBufWrite a b s).cfg = s.cfg := by
  unfold hostBufWrite
  split
  case isTrue ha =>
    have hbuf := tableSorted_tableSet ha b (Nat.zero_le _) h.buffer
    exact ⟨⟨h.params, h.length, h.ranges, h.status, h.slots, h.enables, hbuf, h.firsts, h.lasts⟩, rfl⟩
  case isFalse => exact ⟨withAnswer_legal h _, rfl⟩

/-! ## Steps -/

/-- Every host action keeps the state legal. -/
theorem act_legal {a : HostAction} {s t : State} (h : s.Legal) (ht : act a s = .next t) :
    t.Legal ∧ t.cfg = s.cfg := by
  cases a with
  | regRead idx => cases ht; exact ⟨withAnswer_legal h _, rfl⟩
  | regWrite idx v =>
    by_cases hidx : idx = 0x00
    · rw [hidx, act_command] at ht
      exact issue_legal (s := withAnswer .nothing s) (withAnswer_legal h _) ht
    · rw [act_regWrite v s hidx] at ht
      cases ht
      exact hostRegWrite_legal h idx v
  | bufRead a => cases ht; exact ⟨withAnswer_legal h _, rfl⟩
  | bufWrite a b => cases ht; exact hostBufWrite_legal h a b
  | reset => cases ht; exact ⟨initial_legal _ _ h.params, rfl⟩

/-- What the host does next does not matter to legality. -/
theorem legal_withPending {s : State} (h : s.Legal) (rest : List HostAction) :
    ({ s with pending := rest } : State).Legal :=
  ⟨h.params, h.length, h.ranges, h.status, h.slots, h.enables, h.buffer, h.firsts, h.lasts⟩

/-- Settles O15: an idle step holds the state, and any other performs one host action. -/
theorem everyStepKeepsStateLegal : Obligations.EveryStepKeepsStateLegal := by
  intro s t h ht
  cases hp : s.pending with
  | nil =>
    rw [step_idle hp] at ht
    cases ht
    exact ⟨h, rfl⟩
  | cons a rest =>
    rw [step_act hp] at ht
    exact act_legal (s := { s with pending := rest }) (legal_withPending h rest) ht

end Sys2Proof.Machine
end

section
/-! The buffer port (20_memory.md R63) and little-endian integers in BUF (R60, R61, R65): one equation for each host
action on BUF, one rule for the byte read after a write, and MemRead as a sum over the bytes it reads. -/

namespace Sys2Proof.Machine

/-! ## The buffer port -/

theorem step_bufRead {s : State} {a : BitVec 16} {rest : List HostAction} (h : s.pending = .bufRead a :: rest) :
    step s = .next { s with
      pending := rest, answer := .byte (if a.toNat < s.cfg.bufSize then s.byte a.toNat else 0) } := step_act h

/-- BUF after `BufWrite(a, b)`. -/
def State.bufPut (s : State) (a : Nat) (b : Byte) : Memory :=
  if a < s.cfg.bufSize then tableSet s.buf a b else s.buf

theorem step_bufWrite {s : State} {a : BitVec 16} {b : Byte} {rest : List HostAction}
    (h : s.pending = .bufWrite a b :: rest) :
    step s = .next { acted rest s with buf := s.bufPut a.toNat b } := by
  rw [step_act h]
  by_cases ha : a.toNat < s.cfg.bufSize <;> simp [act, hostBufWrite, State.bufPut, withAnswer, acted, ha]

/-- Read after write: only the address written, and only within BUF_SIZE, reads the new byte. -/
theorem byte_of_buf_bufPut {s t : State} {a : Nat} {b : Byte} (hbuf : t.buf = s.bufPut a b) (hepoch : t.epoch = s.epoch)
    (x : Nat) : t.byte x = if x = a ∧ a < s.cfg.bufSize then b else s.byte x := by
  rw [State.byte, State.byte, hbuf, hepoch, State.bufPut]
  by_cases ha : a < s.cfg.bufSize
  · by_cases hx : x = a
    · rw [if_pos ha, if_pos ⟨hx, ha⟩, hx, tableGet_tableSet_same, Option.getD_some]
    · rw [if_pos ha, if_neg fun hw => hx hw.1, tableGet_tableSet_other _ _ hx]
  · rw [if_neg ha, if_neg fun hw => ha hw.2]

/-- Settles O9: neither action looks at MODE, and the write changes BUF alone. -/
theorem bufferPortReadsAndWrites : Obligations.BufferPortReadsAndWrites := fun _ _ _ _ =>
  ⟨step_bufRead, fun h => ⟨_, step_bufWrite h, rfl, byte_of_buf_bufPut rfl rfl⟩⟩

/-! ## Little-endian integers -/

/-- R60's sum form of `MemRead`: the model's recursion takes the lowest byte and 256 times the rest. -/
theorem State.memRead_eq_sum (s : State) (a n : Nat) :
    s.memRead a n = ((List.range n).map fun i => (s.byte (a + i)).toNat * 256 ^ i).sum := by
  induction n generalizing a with
  | zero => rfl
  | succ n ih =>
    have hshift : (fun i => (s.byte (a + (i + 1))).toNat * 256 ^ (i + 1)) =
        fun i => 256 * ((s.byte (a + 1 + i)).toNat * 256 ^ i) := by
      funext i
      rw [Nat.add_right_comm, ← Nat.add_assoc, pow_succ]
      ring
    rw [State.memRead, ih, ← List.sum_map_mul_left, ← hshift, List.range_succ_eq_map, List.map_cons, List.sum_cons,
      List.map_map, Nat.add_zero, pow_zero, Nat.mul_one]
    rfl

theorem two_pow_eight_mul (n : Nat) : 2 ^ (8 * n) = 256 ^ n := pow_mul 2 8 n

/-- Settles O31: the obligation's powers of 2 are powers of 256, and a byte keeps only its residue modulo 256. -/
theorem memReadOfMemWrite : Obligations.MemReadOfMemWrite := by
  intro s a n v
  simp only [two_pow_eight_mul]
  refine ⟨leBytes_length n v, fun i hi => ?_, s.memRead_eq_sum a n, fun hv hbytes => holds_memRead hbytes hv⟩
  rw [leBytes_getElem? n v i hi]
  exact congrArg some (BitVec.eq_of_toNat_eq (by simp))

end Sys2Proof.Machine
end

section
/-! Masks, bits and values of words, and the decoder of frame type bytes and public flags bytes told bit by bit
(30_encoding.md R84 to R89). -/

namespace Sys2Proof

/-! ## Masks, bits and values -/

/-- A mask test compares, at every place, the bits that the mask selects. -/
theorem and_eq_iff_getLsbD {w : Nat} (t m p : BitVec w) :
    t &&& m = p ↔ ∀ i : Fin w, (t.getLsbD i && m.getLsbD i) = p.getLsbD i := by
  simp only [BitVec.eq_of_getLsbD_eq_iff, BitVec.getLsbD_and, Fin.forall_iff]

/-- A bit of a word is a binary digit of its value. -/
theorem getLsbD_eq_true {w : Nat} {t : BitVec w} {i : Nat} (h : t.toNat / 2 ^ i % 2 = 1) : t.getLsbD i = true := by
  rw [BitVec.getLsbD, Nat.testBit_eq_decide_div_mod_eq, decide_eq_true h]

theorem getLsbD_eq_false {w : Nat} {t : BitVec w} {i : Nat} (h : t.toNat / 2 ^ i % 2 = 0) : t.getLsbD i = false := by
  rw [BitVec.getLsbD, Nat.testBit_eq_decide_div_mod_eq, h]
  rfl

/-! ## The classes of frame type bytes (R84) -/

theorem streamMask_iff (t : Byte) : t &&& 0x80#8 = 0x80#8 ↔ t.getLsbD 7 = true := by
  simp [and_eq_iff_getLsbD, Fin.forall_fin_succ]

theorem ackMask_iff (t : Byte) : t &&& 0xC0#8 = 0x40#8 ↔ t.getLsbD 6 = true ∧ t.getLsbD 7 = false := by
  simp [and_eq_iff_getLsbD, Fin.forall_fin_succ]

theorem congestionMask_iff (t : Byte) :
    t &&& 0xE0#8 = 0x20#8 ↔ t.getLsbD 5 = true ∧ t.getLsbD 6 = false ∧ t.getLsbD 7 = false := by
  simp [and_eq_iff_getLsbD, Fin.forall_fin_succ]

theorem decodeFrameByte_stream {t : Byte} (h7 : t.getLsbD 7 = true) : decodeFrameByte t =
    .ok (.stream (t.getLsbD 6) (t.getLsbD 5) (t.extractLsb' 2 3) (t.extractLsb' 0 2)) :=
  if_pos ((streamMask_iff t).2 h7)

theorem decodeFrameByte_ack {t : Byte} (h6 : t.getLsbD 6 = true) (h7 : t.getLsbD 7 = false) : decodeFrameByte t =
    .ok (.ack (t.getLsbD 5) (t.extractLsb' 3 2) (t.getLsbD 2) (t.extractLsb' 0 2)) := by
  simp only [decodeFrameByte, streamMask_iff, ackMask_iff, h6, h7, Bool.false_eq_true, and_self, if_true, if_false]

theorem decodeFrameByte_congestion {t : Byte} (h5 : t.getLsbD 5 = true) (h6 : t.getLsbD 6 = false)
    (h7 : t.getLsbD 7 = false) : decodeFrameByte t = .ok (.congestionFeedback (t.extractLsb' 0 5)) := by
  simp only [decodeFrameByte, streamMask_iff, ackMask_iff, congestionMask_iff, h5, h6, h7, Bool.false_eq_true,
    false_and, and_self, if_true, if_false]

/-- The fixed type bytes 0x00 to 0x07 in order (R85). -/
def fixedFrames : List FrameByte :=
  [.padding, .rstStream, .connectionClose, .goaway, .windowUpdate, .blocked, .stopWaiting, .ping]

theorem decodeFrameByte_fixed {t : Byte} (h : t.toNat ≤ 0x07) : ∃ b, fixedFrames[t.toNat]? = some b ∧
    decodeFrameByte t = .ok b := by
  obtain ⟨k, hk⟩ : ∃ k, t.toNat = k := ⟨_, rfl⟩
  obtain rfl : t = BitVec.ofNat 8 k := by rw [← hk, BitVec.ofNat_toNat, BitVec.setWidth_eq]
  rw [hk] at h
  interval_cases k <;> exact ⟨_, rfl, rfl⟩

theorem decodeFrameByte_reserved {t : Byte} (hlow : 0x08 ≤ t.toNat) (hhigh : t.toNat ≤ 0x1F) :
    decodeFrameByte t = .error .reservedFrameType := by
  obtain ⟨n, hn⟩ : ∃ n, t.toNat = n + 8 := ⟨t.toNat - 8, by omega⟩
  have h5 : t.getLsbD 5 = false := getLsbD_eq_false (by omega)
  have h6 : t.getLsbD 6 = false := getLsbD_eq_false (by omega)
  have h7 : t.getLsbD 7 = false := getLsbD_eq_false (by omega)
  simp only [decodeFrameByte, streamMask_iff, ackMask_iff, congestionMask_iff, h5, h6, h7, Bool.false_eq_true,
    false_and, if_false, hn]

/-! ## Bytes composed of fields -/

/-- A field is read bit by bit. -/
theorem extractLsb'_eq {w m : Nat} {t : BitVec w} {lo : Nat} {x : BitVec m}
    (h : ∀ k < m, t.getLsbD (lo + k) = x.getLsbD k) : t.extractLsb' lo m = x :=
  BitVec.eq_of_getLsbD_eq fun k hk => by rw [BitVec.getLsbD_extractLsb', h k hk, decide_eq_true hk, Bool.true_and]

theorem getLsbD_congestionByte (x : BitVec 5) (i : Nat) : BitVec.getLsbD (w := 8) (0b001#3 ++ x) i =
    if i < 5 then x.getLsbD i else decide (i = 5) := by
  show BitVec.getLsbD (w := 3 + 5) _ i = _
  rw [BitVec.getLsbD_append]
  grind

theorem getLsbD_ackByte (n : Bool) (ll : BitVec 2) (u : Bool) (mm : BitVec 2) (i : Nat) :
    BitVec.getLsbD (w := 8) (0b01#2 ++ bit n ++ ll ++ bit u ++ mm) i =
      if i < 2 then mm.getLsbD i else if i < 3 then u else if i < 5 then ll.getLsbD (i - 3) else if i < 6 then n
      else decide (i = 6) := by
  show BitVec.getLsbD (w := 2 + 1 + 2 + 1 + 2) _ i = _
  simp only [BitVec.getLsbD_append, bit, BitVec.getLsbD_ofBool]
  grind

theorem getLsbD_streamByte (f d : Bool) (ooo : BitVec 3) (ss : BitVec 2) (i : Nat) :
    BitVec.getLsbD (w := 8) (1#1 ++ bit f ++ bit d ++ ooo ++ ss) i =
      if i < 2 then ss.getLsbD i else if i < 5 then ooo.getLsbD (i - 2) else if i < 6 then d
      else if i < 7 then f else decide (i = 7) := by
  show BitVec.getLsbD (w := 1 + 1 + 1 + 3 + 2) _ i = _
  simp only [BitVec.getLsbD_append, bit, BitVec.getLsbD_ofBool]
  grind

theorem getLsbD_flagsPattern (pp : BitVec 2) (n r v : Bool) (i : Nat) : (flagsPattern pp n r v).getLsbD i =
    if i < 1 then v else if i < 2 then r else if i < 3 then n else if i < 4 then true
    else if i < 6 then pp.getLsbD (i - 4) else false := by
  show BitVec.getLsbD (w := 2 + 2 + 1 + 1 + 1 + 1) (0#2 ++ pp ++ 1#1 ++ bit n ++ bit r ++ bit v) i = _
  simp only [BitVec.getLsbD_append, bit, BitVec.getLsbD_ofBool]
  grind

theorem decodeFrameByte_congestionByte (x : BitVec 5) :
    decodeFrameByte (0b001#3 ++ x) = .ok (.congestionFeedback x) := by
  have hbit := getLsbD_congestionByte x
  have hx : BitVec.extractLsb' (n := 8) 0 5 (0b001#3 ++ x) = x := extractLsb'_eq fun k hk => by rw [hbit]; grind
  rw [decodeFrameByte_congestion (hbit 5) (hbit 6) (hbit 7), hx]

theorem decodeFrameByte_ackByte (n : Bool) (ll : BitVec 2) (u : Bool) (mm : BitVec 2) :
    decodeFrameByte (0b01#2 ++ bit n ++ ll ++ bit u ++ mm) = .ok (.ack n ll u mm) := by
  have hbit := getLsbD_ackByte n ll u mm
  have hll : BitVec.extractLsb' (n := 8) 3 2 (0b01#2 ++ bit n ++ ll ++ bit u ++ mm) = ll :=
    extractLsb'_eq fun k hk => by rw [hbit]; grind
  have hmm : BitVec.extractLsb' (n := 8) 0 2 (0b01#2 ++ bit n ++ ll ++ bit u ++ mm) = mm :=
    extractLsb'_eq fun k hk => by rw [hbit]; grind
  rw [decodeFrameByte_ack (hbit 6) (hbit 7), hbit 5, hbit 2, hll, hmm]
  rfl

theorem decodeFrameByte_streamByte (f d : Bool) (ooo : BitVec 3) (ss : BitVec 2) :
    decodeFrameByte (1#1 ++ bit f ++ bit d ++ ooo ++ ss) = .ok (.stream f d ooo ss) := by
  have hbit := getLsbD_streamByte f d ooo ss
  have hooo : BitVec.extractLsb' (n := 8) 2 3 (1#1 ++ bit f ++ bit d ++ ooo ++ ss) = ooo :=
    extractLsb'_eq fun k hk => by rw [hbit]; grind
  have hss : BitVec.extractLsb' (n := 8) 0 2 (1#1 ++ bit f ++ bit d ++ ooo ++ ss) = ss :=
    extractLsb'_eq fun k hk => by rw [hbit]; grind
  rw [decodeFrameByte_stream (hbit 7), hbit 6, hbit 5, hooo, hss]
  rfl

/-! ## Public flags bytes (R87 to R89) -/

theorem wellFormedMask_iff (f : Byte) :
    f &&& 0xC8 = 0x08 ↔ f.getLsbD 3 = true ∧ f.getLsbD 6 = false ∧ f.getLsbD 7 = false := by
  simp [and_eq_iff_getLsbD, Fin.forall_fin_succ]

theorem resetMask_iff (f : Byte) : f &&& 0xCA = 0x0A ↔
    f.getLsbD 1 = true ∧ f.getLsbD 3 = true ∧ f.getLsbD 6 = false ∧ f.getLsbD 7 = false := by
  simp [and_eq_iff_getLsbD, Fin.forall_fin_succ]

theorem noResetMask_iff (f : Byte) : f &&& 0xCA = 0x08 ↔
    f.getLsbD 1 = false ∧ f.getLsbD 3 = true ∧ f.getLsbD 6 = false ∧ f.getLsbD 7 = false := by
  simp [and_eq_iff_getLsbD, Fin.forall_fin_succ]

theorem versionMask_iff (f : Byte) : f &&& 0xCB = 0x09 ↔ f.getLsbD 0 = true ∧
    f.getLsbD 1 = false ∧ f.getLsbD 3 = true ∧ f.getLsbD 6 = false ∧ f.getLsbD 7 = false := by
  simp [and_eq_iff_getLsbD, Fin.forall_fin_succ]

/-- The variant of a well-formed flags byte under a role, in the order of R88. -/
def flagsVariant (sb : Role) (f : Byte) : FlagsByte :=
  if f.getLsbD 1 then .reset (f.getLsbD 0) (f.getLsbD 2) (f.extractLsb' 4 2)
  else if f.getLsbD 0 && sb == .server then .negotiation (f.getLsbD 2) (f.extractLsb' 4 2)
  else .regular (f.getLsbD 0) (f.getLsbD 2) (f.extractLsb' 4 2)

theorem decodeFlagsByte_of_wellFormed (sb : Role) {f : Byte} (h : f &&& 0xC8 = 0x08) :
    decodeFlagsByte sb f = .ok (flagsVariant sb f) := by
  obtain ⟨h3, h6, h7⟩ := (wellFormedMask_iff f).1 h
  simp only [decodeFlagsByte, flagsVariant, h3, h6, h7, Bool.or_self, Bool.not_true, Bool.false_eq_true, if_false]
  split_ifs <;> rfl

theorem decodeFlagsByte_of_not_wellFormed (sb : Role) {f : Byte} (h : f &&& 0xC8 ≠ 0x08) :
    ∃ e, decodeFlagsByte sb f = .error e := by
  by_cases htop : (f.getLsbD 7 || f.getLsbD 6) = true
  · exact ⟨.reservedFlagBits, if_pos htop⟩
  · by_cases hid : (!f.getLsbD 3) = true
    · exact ⟨.missingConnectionId, (if_neg htop).trans (if_pos hid)⟩
    · exact absurd ((wellFormedMask_iff f).2 (by grind)) h

theorem decodeFlagsByte_flagsPattern (sb : Role) (pp : BitVec 2) (n r v : Bool) :
    decodeFlagsByte sb (flagsPattern pp n r v) = .ok
      (if r then .reset v n pp else if v && sb == .server then .negotiation n pp else .regular v n pp) := by
  have hbit := getLsbD_flagsPattern pp n r v
  have hpp : (flagsPattern pp n r v).extractLsb' 4 2 = pp := extractLsb'_eq fun k hk => by rw [hbit]; grind
  rw [decodeFlagsByte_of_wellFormed sb ((wellFormedMask_iff _).2 ⟨hbit 3, hbit 6, hbit 7⟩), flagsVariant, hbit 0,
    hbit 1, hbit 2, hpp]
  rfl

/-! ## The decoder -/

theorem decode_ft_ok {t : Byte} {b : FrameByte} (h : decodeFrameByte t = .ok b) :
    decode (.ft t) = .ok (instrOfFrame b) := by rw [decode, h]; rfl

theorem decode_ft_error {t : Byte} {e : Illegal} (h : decodeFrameByte t = .error e) : decode (.ft t) = .error e := by
  rw [decode, h]; rfl

theorem decode_pf_ok {sb : Role} {f : Byte} {b : FlagsByte} (h : decodeFlagsByte sb f = .ok b) :
    decode (.pf sb f) = .ok (instrOfFlags b) := by rw [decode, h]; rfl

theorem decode_pf_error {sb : Role} {f : Byte} {e : Illegal} (h : decodeFlagsByte sb f = .error e) :
    decode (.pf sb f) = .error e := by rw [decode, h]; rfl

/-- A command, or a type byte without fields, is one word of the tables; the other bytes are read field by field. -/
theorem decode_encode (i : Instr) : decode (encode i) = .ok i := by
  cases i with
  | pktParse sb => cases sb <;> rfl
  | pktSerReg sb => cases sb <;> rfl
  | ftCongestionFeedback x => exact decode_ft_ok (decodeFrameByte_congestionByte x)
  | ftAck n ll u mm => exact decode_ft_ok (decodeFrameByte_ackByte n ll u mm)
  | ftStream f d ooo ss => exact decode_ft_ok (decodeFrameByte_streamByte f d ooo ss)
  | pfReset v n pp => exact decode_pf_ok (decodeFlagsByte_flagsPattern .client pp n true v)
  | pfNegotiation n pp => exact decode_pf_ok (decodeFlagsByte_flagsPattern .server pp n false true)
  | pfRegular v n pp => cases v <;> exact decode_pf_ok (decodeFlagsByte_flagsPattern .client pp n false _)
  | _ => rfl

/-- A word or byte that an instruction encodes to decodes to it. -/
theorem decode_of_encode {i : Instr} {e : Encoding} (h : encode i = e) : decode e = .ok i := h ▸ decode_encode i

/-- Settles O1: a Reset byte, and a Regular byte without a version tag, show no bit that the role decides. -/
theorem decodeOfEncodeIsTheInstruction : Obligations.DecodeOfEncodeIsTheInstruction :=
  ⟨decode_encode, fun sb v n pp => decode_pf_ok (decodeFlagsByte_flagsPattern sb pp n true v),
    fun sb n pp => decode_pf_ok (decodeFlagsByte_flagsPattern sb pp n false false)⟩

/-- Settles O4: the range of a byte's value fixes its top three bits, and those its class. -/
theorem typeByteKindsByRange : Obligations.TypeByteKindsByRange := by
  intro t
  have hlt := t.isLt
  refine ⟨?reserved, ?congestion, ?ack, ?stream, ?fixed⟩
  case reserved => exact fun ⟨hlow, hhigh⟩ => decode_ft_error (decodeFrameByte_reserved hlow hhigh)
  case congestion =>
    exact fun ⟨hlow, hhigh⟩ => decode_ft_ok (decodeFrameByte_congestion (getLsbD_eq_true (by omega))
      (getLsbD_eq_false (by omega)) (getLsbD_eq_false (by omega)))
  case ack =>
    exact fun ⟨hlow, hhigh⟩ =>
      decode_ft_ok (decodeFrameByte_ack (getLsbD_eq_true (by omega)) (getLsbD_eq_false (by omega)))
  case stream => exact fun hlow => decode_ft_ok (decodeFrameByte_stream (getLsbD_eq_true (by omega)))
  case fixed =>
    intro hhigh
    obtain ⟨b, hb, hdecode⟩ := decodeFrameByte_fixed hhigh
    rw [decode_ft_ok hdecode]
    have hmap := congrArg (Option.map fun b => (Except.ok (instrOfFrame b) : Except Illegal Instr)) hb
    exact (List.getElem?_map.trans hmap).symm

/-- Settles O5: R88's masks, bit by bit, choose the branch of the variant. -/
theorem flagsByteVariants : Obligations.FlagsByteVariants := by
  intro sb f
  have hdecode (h3 : f.getLsbD 3 = true) (h6 : f.getLsbD 6 = false) (h7 : f.getLsbD 7 = false) :
      decode (.pf sb f) = .ok (instrOfFlags (flagsVariant sb f)) :=
    decode_pf_ok (decodeFlagsByte_of_wellFormed sb ((wellFormedMask_iff f).2 ⟨h3, h6, h7⟩))
  refine ⟨⟨?_, ?_⟩, ?_, ?_, ?_⟩
  · rintro ⟨e, he⟩ hwf
    obtain ⟨h3, h6, h7⟩ := (wellFormedMask_iff f).1 hwf
    rw [hdecode h3 h6 h7] at he
    cases he
  · intro hwf
    obtain ⟨e, he⟩ := decodeFlagsByte_of_not_wellFormed sb hwf
    exact ⟨e, decode_pf_error he⟩
  · intro h
    obtain ⟨h1, h3, h6, h7⟩ := (resetMask_iff f).1 h
    rw [hdecode h3 h6 h7, flagsVariant, h1]
    rfl
  · rintro ⟨h, rfl⟩
    obtain ⟨h0, h1, h3, h6, h7⟩ := (versionMask_iff f).1 h
    rw [hdecode h3 h6 h7, flagsVariant, h0, h1]
    rfl
  · rintro ⟨h, hneg⟩
    obtain ⟨h1, h3, h6, h7⟩ := (noResetMask_iff f).1 h
    have hregular : ¬ (f.getLsbD 0 && sb == .server) = true := by
      rw [Bool.and_eq_true, beq_iff_eq]
      exact fun ⟨h0, hsb⟩ => hneg ⟨(versionMask_iff f).2 ⟨h0, h1, h3, h6, h7⟩, hsb⟩
    rw [hdecode h3 h6 h7, flagsVariant, h1, if_neg Bool.false_ne_true, if_neg hregular]
    rfl

/-- Settles O6: each sample is what the encoder writes for the instruction. -/
theorem sampleWordsDecode : Obligations.SampleWordsDecode :=
  ⟨decode_of_encode rfl, decode_of_encode rfl, decode_of_encode rfl, decode_of_encode rfl, decode_of_encode rfl,
    decode_of_encode rfl, decode_of_encode rfl, decode_of_encode rfl, decode_of_encode rfl, decode_of_encode rfl,
    decode_of_encode rfl⟩

end Sys2Proof
end

section
/-! The legal command words (30_encoding.md R82, R83), and the faults of issuing an illegal word and of FT_DEC
(42_frame_type.md R162). -/

namespace Sys2Proof.Machine

/-! ## Command words -/

/-- The words that a row of the opcode map matches: one, or one for each role where the mask leaves bit 8 open. -/
def wordsOfRow (r : CommandRow) : List CommandWord :=
  if r.mask = 0xFFFF then [r.pattern] else [r.pattern, r.pattern ||| roleBit .server]

theorem legalWords_eq : legalWords = commandTable.flatMap wordsOfRow := by decide

/-- The mask of a row with a role operand lets bit 8 be either. -/
theorem and_roleMask_eq_iff (w p : CommandWord) (hp : p.getLsbD 8 = false) :
    w &&& 0xFEFF = p ↔ w = p ∨ w = p ||| roleBit .server := by
  have hmask : ∀ i : Fin 16, BitVec.getLsbD (0xFEFF : CommandWord) i = decide (i ≠ 8) := by decide
  have hrole : ∀ i : Fin 16, (roleBit .server).getLsbD i = decide (i = 8) := by decide
  constructor
  · rintro rfl
    cases h8 : w.getLsbD 8 with
    | false =>
      refine .inl (BitVec.eq_of_getLsbD_eq fun i hi => ?_)
      have hselected := hmask ⟨i, hi⟩
      grind
    | true =>
      refine .inr (BitVec.eq_of_getLsbD_eq fun i hi => ?_)
      have hselected := hmask ⟨i, hi⟩
      have hset := hrole ⟨i, hi⟩
      grind
  · rw [and_eq_iff_getLsbD]
    rintro (rfl | rfl) <;> grind

/-- The two kinds of masks of R82. -/
theorem commandTable_masks :
    ∀ r ∈ commandTable, r.mask = 0xFFFF ∨ r.mask = 0xFEFF ∧ r.pattern.getLsbD 8 = false := by decide

theorem row_matches_iff {r : CommandRow} (hr : r ∈ commandTable) (w : CommandWord) :
    w &&& r.mask = r.pattern ↔ w ∈ wordsOfRow r := by
  rcases commandTable_masks r hr with hmask | ⟨hmask, hp⟩
  · have hall : w &&& 0xFFFF = w := BitVec.and_allOnes
    rw [wordsOfRow, if_pos hmask, hmask, hall, List.mem_singleton]
  · have hopen : r.mask ≠ 0xFFFF := by rw [hmask]; decide
    rw [wordsOfRow, if_neg hopen, hmask, and_roleMask_eq_iff w r.pattern hp, List.mem_pair]

theorem decodeCommand_isOk_iff (w : CommandWord) : (∃ i, decodeCommand w = .ok i) ↔ w ∈ legalWords := by
  rw [legalWords_eq, List.mem_flatMap]
  constructor
  · rintro ⟨i, hi⟩
    obtain ⟨r, hr, hmatch, -⟩ := decodeCommand_ok hi
    exact ⟨r, hr, (row_matches_iff hr w).1 hmatch⟩
  · rintro ⟨r, hr, hw⟩
    cases hd : decodeCommand w with
    | ok i => exact ⟨i, rfl⟩
    | error e => exact absurd ((row_matches_iff hr w).2 hw) (decodeCommand_error hd r hr)

/-- A command word by its fields (R81). -/
def wordOf (sb : Bool) (op : Byte) : CommandWord := 0#7 ++ bit sb ++ op

theorem getLsbD_wordOf (sb : Bool) (op : Byte) (i : Nat) : (wordOf sb op).getLsbD i =
    if i < 8 then op.getLsbD i else if i < 9 then sb else false := by
  show BitVec.getLsbD (w := 7 + 1 + 8) (0#7 ++ bit sb ++ op) i = _
  simp only [BitVec.getLsbD_append, bit, BitVec.getLsbD_ofBool]
  grind

theorem eq_wordOf {w : CommandWord} (h : w.extractLsb' 9 7 = 0) : w = wordOf (w.getLsbD 8) (w.extractLsb' 0 8) := by
  refine BitVec.eq_of_getLsbD_eq fun i hi => ?_
  have hreserved := congrArg (fun x : BitVec 7 => x.getLsbD (i - 9)) h
  simp only [BitVec.getLsbD_extractLsb'] at hreserved
  rw [getLsbD_wordOf, BitVec.getLsbD_extractLsb']
  grind

theorem legalWords_reserved {w : CommandWord} (h : w ∈ legalWords) : w.extractLsb' 9 7 = 0 := by
  have hall : legalWords.all (fun l => decide (l.extractLsb' 9 7 = 0)) := by decide
  exact of_decide_eq_true (List.all_eq_true.1 hall w h)

theorem legalWords_role {w : CommandWord} (h : w ∈ legalWords) (h8 : w.getLsbD 8 = true) :
    w.extractLsb' 0 8 = 0x50 ∨ w.extractLsb' 0 8 = 0x51 := by
  have hall : legalWords.all fun l =>
      decide (l.getLsbD 8 = true → l.extractLsb' 0 8 = 0x50 ∨ l.extractLsb' 0 8 = 0x51) := by decide
  exact of_decide_eq_true (List.all_eq_true.1 hall w h) h8

/-- R83: the legal words are those with an opcode of the map, reserved bits clear, and `SB` set only for the two
commands that have a role. -/
theorem mem_legalWords_iff (w : CommandWord) : w ∈ legalWords ↔
    w.extractLsb' 0 8 ∈ legalWords.map (fun l => l.extractLsb' 0 8) ∧ w.extractLsb' 9 7 = 0 ∧
      (w.getLsbD 8 = true → w.extractLsb' 0 8 = 0x50 ∨ w.extractLsb' 0 8 = 0x51) := by
  constructor
  · exact fun h => ⟨List.mem_map_of_mem h, legalWords_reserved h, legalWords_role h⟩
  · rintro ⟨hop, hreserved, hrole⟩
    by_cases hsb : w.extractLsb' 0 8 = 0x50 ∨ w.extractLsb' 0 8 = 0x51
    · have hall : ∀ sb, wordOf sb 0x50 ∈ legalWords ∧ wordOf sb 0x51 ∈ legalWords := by decide
      rw [eq_wordOf hreserved]
      rcases hsb with h | h <;> rw [h]
      · exact (hall _).1
      · exact (hall _).2
    · obtain ⟨l, hl, hlop⟩ := List.mem_map.1 hop
      have hw8 : w.getLsbD 8 = false := Bool.eq_false_iff.2 fun h => hsb (hrole h)
      have hl8 : l.getLsbD 8 = false := Bool.eq_false_iff.2 fun h => hsb (hlop ▸ legalWords_role hl h)
      rwa [eq_wordOf hreserved, hw8, ← hl8, ← hlop, ← eq_wordOf (legalWords_reserved hl)]

/-! ## Faults -/

/-- An instruction whose rule fails in READY mode takes the fault (60_exceptions.md R233). -/
theorem exec_of_rule_error {i : Instr} {s : State} {e : FaultCode} (hmode : s.mode = .ready)
    (h : rule i (prepared i s) = .error e) : exec i s = .next (takeFault e (prepared i s)) := by
  rw [exec_ready i s hmode, settle_of_error h]

theorem frameDecodeRule_of_error {s : State} {e : Illegal} (hlen : s.cur.toNat < s.len.toNat)
    (h : decodeFrameByte (s.byte s.cur.toNat) = .error e) : frameDecodeRule s = .error .badFrameType := by
  rw [frameDecodeRule, if_neg (by omega), h]

theorem frameDecodeRule_of_ok {s : State} {b : FrameByte} (hlen : s.cur.toNat < s.len.toNat)
    (h : decodeFrameByte (s.byte s.cur.toNat) = .ok b) : frameDecodeRule s = frameRule b s := by
  rw [frameDecodeRule, if_neg (by omega), h]

theorem toNat_extractLsb'_eq_field {w : Nat} (v : BitVec w) (hi lo : Nat) :
    (v.extractLsb' lo (hi - lo + 1)).toNat = field v hi lo := by
  rw [BitVec.extractLsb'_toNat, Nat.shiftRight_eq_div_pow, field]

/-- R86: offset code 7 has no width. -/
theorem frameRule_stream_reserved (f d : Bool) (ss : BitVec 2) (s : State) :
    frameRule (.stream f d 7 ss) s = .error .badWidth := by
  rw [frameRule, if_pos]
  rfl

/-- Settles O3: a word outside the 30 matches no row of the opcode map, and issuing it takes the first fault of R232. -/
theorem illegalWordsRaiseIllegalCmd : Obligations.IllegalWordsRaiseIllegalCmd := by
  refine ⟨decodeCommand_isOk_iff, fun w => ?_, fun s v rest hpending hmode hillegal => ?_⟩
  · rw [mem_legalWords_iff]
    tauto
  · rw [step_act hpending, act_command]
    cases hd : decodeCommand (v.setWidth 16) with
    | ok i => exact absurd ((decodeCommand_isOk_iff _).1 ⟨i, hd⟩) hillegal
    | error e =>
      rw [issue_of_illegal hd]
      exact command_ready hmode

/-- Settles O35: each case makes the rule of FT_DEC, or of the row STREAM, fail before it writes anything. -/
theorem frameDecodeFaults : Obligations.FrameDecodeFaults := by
  refine ⟨decode_of_encode rfl, fun s hmode =>
    ⟨fun hshort => ?_, fun hlen => ⟨fun ⟨hlow, hhigh⟩ => ?_, fun ⟨hstream, hoff⟩ => ?_⟩, fun f d ss => ?_⟩⟩
  · exact exec_of_rule_error (e := .shortBuffer) hmode (if_pos (Nat.lt_succ_of_le hshort))
  · exact exec_of_rule_error (i := .ftDec) hmode
      (frameDecodeRule_of_error (s := withCmd 0x0030 s) hlen (decodeFrameByte_reserved hlow hhigh))
  · have hlt := (s.byte s.cur.toNat).isLt
    have hdecode := decodeFrameByte_stream (getLsbD_eq_true (t := s.byte s.cur.toNat) (i := 7) (by omega))
    have hcode : (s.byte s.cur.toNat).extractLsb' 2 3 = 7 :=
      BitVec.eq_of_toNat_eq ((toNat_extractLsb'_eq_field _ 4 2).trans hoff)
    rw [hcode] at hdecode
    exact exec_of_rule_error (i := .ftDec) hmode ((frameDecodeRule_of_ok (s := withCmd 0x0030 s) hlen hdecode).trans
      (frameRule_stream_reserved ..))
  · exact exec_of_rule_error (i := .ftStream f d 7 ss) hmode (frameRule_stream_reserved f d ss s)

end Sys2Proof.Machine
end

section
/-! Issue, faults and FAULT_ACK (40_common.md R111, R112, R120; 60_exceptions.md R233, R234, R238): a fault is taken on
the prepared state, which differs from the state before in CMD at most, and FAULT_ACK undoes the two other writes. -/

namespace Sys2Proof.Machine

/-! ## FAULT_ACK -/

theorem exec_faultAck_faulted {s : State} (h : s.mode = .faulted) : exec .faultAck s = .next (returnFromFault s) := by
  simp [exec, execFaultAck, h]

theorem exec_faultAck_ready {s : State} (h : s.mode = .ready) : exec .faultAck s = .next (withCmd 0x0001 s) := by
  simp [exec, execFaultAck, h]

/-- Settles O19: the word is FAULT_ACK's own encoding, and each mode has its equation. -/
theorem faultAckReturnsToReady : Obligations.FaultAckReturnsToReady :=
  ⟨decode_of_encode rfl, fun _ => ⟨exec_faultAck_faulted, exec_faultAck_ready⟩⟩

/-! ## Issue -/

/-- Settles O7: the step performs the write, and the write issues the word. -/
theorem stepRunsTheDecodedCommand : Obligations.StepRunsTheDecodedCommand := by
  intro s v rest i hpending hdecode
  calc step s = act (.regWrite 0x00 v) { s with pending := rest } := step_act hpending
    _ = issue v (acted rest s) := act_command v _
    _ = exec i (acted rest s) := issue_of_decode hdecode

/-! ## Faults -/

/-- Rules leave MODE alone, so an instruction that ends in FAULTED mode has taken a fault before it wrote a result. -/
theorem exec_ready_eq_takeFault {i : Instr} {s t : State} (hmode : s.mode = .ready) (ht : exec i s = .next t)
    (hfaulted : t.mode = .faulted) : ∃ e, t = takeFault e (prepared i s) := by
  obtain hok | ⟨e, -, rfl⟩ := exec_ready_cases hmode ht
  · have hready : t.mode = .ready := by rw [(rule_keeps hok).mode, prepared_mode, hmode]
    rw [hready] at hfaulted
    cases hfaulted
  · exact ⟨e, rfl⟩

theorem faultNumber_pos (e : FaultCode) : 1 ≤ (faultNumber e).toNat :=
  Nat.pos_of_ne_zero fun h => faultNumber_ne_zero e (BitVec.eq_of_toNat_eq h)

/-- The fault procedure of the model is that of the statements, for the word that CMD already holds (R233). -/
theorem takeFault_eq_afterFault (e : FaultCode) (s : State) :
    takeFault e s = afterFault s.cmd (faultNumber e).toNat s := by
  rw [takeFault, afterFault, BitVec.ofNat_toNat, BitVec.setWidth_eq]

/-- The word in CMD before the issue is not seen after the fault. -/
theorem afterFault_withCmd (w w' : CommandWord) (code : Nat) (s : State) :
    afterFault w code (withCmd w' s) = afterFault w code s := rfl

/-- Settles O17: the fault is taken on the prepared state, whose only difference from the state before is CMD. -/
theorem faultsArePrecise : Obligations.FaultsArePrecise := by
  intro i s t hmode ht hfaulted
  obtain ⟨e, rfl⟩ := exec_ready_eq_takeFault hmode ht hfaulted
  refine ⟨(faultNumber e).toNat, faultNumber_pos e, faultNumber_le e, ?_⟩
  rw [takeFault_eq_afterFault, prepared]
  cases encode i with
  | cw w => exact afterFault_withCmd ..
  | ft _ => rfl
  | pf _ _ => rfl

/-! ## The return from a fault -/

/-- R26: ERR is 0 in READY mode. -/
theorem State.Legal.err_eq_zero {s : State} (h : s.Legal) (hmode : s.mode = .ready) : s.err = 0 := by
  by_contra herr
  rw [h.status.1 herr] at hmode
  cases hmode

/-- R234: the return restores the two registers that taking a fault wrote. -/
theorem returnFromFault_takeFault {s : State} (h : s.Legal) (hmode : s.mode = .ready) (e : FaultCode) :
    returnFromFault (takeFault e s) = s := by
  calc returnFromFault (takeFault e s) = { s with mode := .ready, err := 0 } := rfl
    _ = s := by rw [← hmode, ← h.err_eq_zero hmode]

/-- Settles O20: FAULT_ACK gives back the prepared state, which is legal too. -/
theorem faultThenFaultAckRestoresAllButCmd : Obligations.FaultThenFaultAckRestoresAllButCmd := by
  intro i s t hlegal hmode ht hfaulted
  obtain ⟨e, rfl⟩ := exec_ready_eq_takeFault hmode ht hfaulted
  obtain ⟨w, hw⟩ := prepared_eq_withCmd i s
  rw [exec_faultAck_faulted hfaulted, hw, returnFromFault_takeFault (withCmd_legal hlegal w) hmode]
  rfl

end Sys2Proof.Machine
end

section
/-! The integer unit and the 16-bit float (41_vli.md R130 to R151). A command issued in READY mode is its rule's answer:
a state, or a fault code. Each rule shared by the three integer types is settled once, for any command that has it; the
obligations apply it at the bounds, tables and width sets of the types. -/

namespace Sys2Proof.Machine

/-! ## Commands in READY mode -/

section

variable {i : Instr} {w : CommandWord} {s t u : State} {bs : List Byte}

theorem prepared_command (henc : encode i = .cw w) (s : State) : prepared i s = withCmd w s := by
  rw [prepared, henc]

/-- R112: a command whose rule succeeds ends in the rule's state. -/
theorem exec_command_ok (henc : encode i = .cw w) (hmode : s.mode = .ready) (h : rule i (withCmd w s) = .ok t) :
    exec i s = .next t := by
  rw [exec_ready i s hmode, prepared_command henc, settle_of_ok h]

/-- R112, R233: a command whose rule fails ends in the fault procedure for its word. -/
theorem exec_command_fault (e : FaultCode) (henc : encode i = .cw w) (hmode : s.mode = .ready)
    (h : rule i (withCmd w s) = .error e) : exec i s = .next (afterFault w (faultNumber e).toNat s) := by
  rw [exec_ready i s hmode, prepared_command henc, settle_of_error h, takeFault_eq_afterFault]
  rfl

/-- R115: a command that ends by emitting bytes stores them at the cursor. Apart from that it leaves the state `u`, in
which the rule has written only registers that do not take part in the store. -/
theorem storesAtCursor_of_emitted (henc : encode i = .cw w) (hmode : s.mode = .ready) (hcur : u.cur = s.cur)
    (hlen : u.len = s.len) (hbyte : ∀ a, u.byte a = s.byte a)
    (h : rule i (withCmd w s) = .ok ((withCmd w u).emitted bs)) : StoresAtCursor i w s u bs := by
  refine ⟨_, exec_command_ok henc hmode h, fun k hk => ?_, fun a ha => ?_, ?_⟩
  · rw [← hcur]
    exact emitted_byte_inside (withCmd w u) bs k hk
  · rw [← hbyte]
    exact emitted_byte_outside (withCmd w u) bs a (by rwa [withCmd_cur, hcur])
  · rw [State.emitted, withCmd_cur, withCmd_len, hcur, hlen]
    rfl

theorem withCmd_memRead (w : CommandWord) (s : State) (a n : Nat) : (withCmd w s).memRead a n = s.memRead a n :=
  State.memRead_congr fun _ _ => rfl

end

/-! ## Canonical widths -/

/-- `w` is the smallest width of the set `ws` that holds the value `v` (R130). -/
def LeastWidth (ws : List Nat) (v w : Nat) : Prop := w ∈ ws ∧ v < 256 ^ w ∧ ∀ w' ∈ ws, v < 256 ^ w' → w ≤ w'

theorem leastWidth_of_least {ws : List Nat} {v w : Nat} (hmem : w ∈ ws) (hleast : ∀ w' ∈ ws, w ≤ w')
    (hfit : v < 256 ^ w) : LeastWidth ws v w :=
  ⟨hmem, hfit, fun w' hw' _ => hleast w' hw'⟩

/-- If `p` is the width of the set before `w` and the value does not fit `p`, no width below `w` holds it. -/
theorem leastWidth_of_previous {ws : List Nat} {v w : Nat} (p : Nat) (hmem : w ∈ ws)
    (hgap : ∀ w' ∈ ws, w ≤ w' ∨ w' ≤ p) (hlow : 256 ^ p ≤ v) (hfit : v < 256 ^ w) : LeastWidth ws v w := by
  refine ⟨hmem, hfit, fun w' hw' hfit' => (hgap w' hw').resolve_right fun hle => ?_⟩
  have hpow : 256 ^ w' ≤ 256 ^ p := Nat.pow_le_pow_right (by decide) hle
  omega

theorem pnWidth_least {v : Nat} (h : v ≤ 0xFFFFFFFFFFFF) : LeastWidth [1, 2, 4, 6] v (pnWidth v) := by
  rw [pnWidth]
  split_ifs with h1 h2 h4
  · exact leastWidth_of_least (by decide) (by decide) (by omega)
  · exact leastWidth_of_previous 1 (by decide) (by decide) (by omega) (by omega)
  · exact leastWidth_of_previous 2 (by decide) (by decide) (by omega) (by omega)
  · exact leastWidth_of_previous 4 (by decide) (by decide) (by omega) (by omega)

theorem sidWidth_least {v : Nat} (h : v ≤ 0xFFFFFFFF) : LeastWidth [1, 2, 3, 4] v (sidWidth v) := by
  rw [sidWidth]
  split_ifs with h1 h2 h3
  · exact leastWidth_of_least (by decide) (by decide) (by omega)
  · exact leastWidth_of_previous 1 (by decide) (by decide) (by omega) (by omega)
  · exact leastWidth_of_previous 2 (by decide) (by decide) (by omega) (by omega)
  · exact leastWidth_of_previous 3 (by decide) (by decide) (by omega) (by omega)

theorem offWidth_least {v : Nat} (h : v ≤ 0xFFFFFFFFFFFFFF) : LeastWidth [0, 2, 3, 4, 5, 6, 7] v (offWidth v) := by
  rw [offWidth]
  split_ifs with h0 h2 h3 h4 h5 h6
  · exact leastWidth_of_least (by decide) (by decide) (by omega)
  · exact leastWidth_of_previous 0 (by decide) (by decide) (by omega) (by omega)
  · exact leastWidth_of_previous 2 (by decide) (by decide) (by omega) (by omega)
  · exact leastWidth_of_previous 3 (by decide) (by decide) (by omega) (by omega)
  · exact leastWidth_of_previous 4 (by decide) (by decide) (by omega) (by omega)
  · exact leastWidth_of_previous 5 (by decide) (by decide) (by omega) (by omega)
  · exact leastWidth_of_previous 6 (by decide) (by decide) (by omega) (by omega)

theorem pnCode_pnOfCode : ∀ c, c ≤ 3 → pnCode (pnOfCode c) = c := by decide

theorem sidCode_sidOfCode (c : Nat) : sidCode (sidOfCode c) = c := Nat.add_sub_cancel c 1

theorem offCode_offOfCode : ∀ c, offCode (offOfCode c) = c
  | 0 => rfl
  | _ + 1 => rfl

/-- Settles O29: each branch of a width function lies between two neighbours of the width set. -/
theorem widthsAreMinimal : Obligations.WidthsAreMinimal :=
  ⟨fun _ => pnWidth_least, fun _ => sidWidth_least, fun _ => offWidth_least,
    fun c hc => ⟨pnCode_pnOfCode c hc, sidCode_sidOfCode c⟩, fun c _ => offCode_offOfCode c⟩

/-! ## Encode commands -/

section

variable {i : Instr} {word : CommandWord} {lo hi : Nat} {width code : Nat → Nat} {s : State}

theorem exec_intEncode_out (henc : encode i = .cw word) (hrule : rule i = intEncode lo hi width code)
    (hmode : s.mode = .ready) (h : s.val.toNat < lo ∨ hi < s.val.toNat) :
    exec i s = .next (afterFault word 5 s) :=
  exec_command_fault .valueRange henc hmode (by rw [hrule]; exact intEncode_out h)

/-- R138, R143, R148: a value in range is stored in its canonical width, unless that leaves the buffer. -/
theorem exec_intEncode_in (henc : encode i = .cw word) (hrule : rule i = intEncode lo hi width code)
    (hmode : s.mode = .ready) (h : lo ≤ s.val.toNat ∧ s.val.toNat ≤ hi) :
    (s.cfg.bufSize < s.cur.toNat + width s.val.toNat → exec i s = .next (afterFault word 3 s)) ∧
    (s.cur.toNat + width s.val.toNat ≤ s.cfg.bufSize →
      StoresAtCursor i word s (s.setWidth (width s.val.toNat) (code (width s.val.toNat)))
        (leBytes (width s.val.toNat) s.val.toNat)) := by
  constructor
  · exact fun hfull => exec_command_fault .noSpace henc hmode (by rw [hrule]; exact intEncode_full h hfull)
  · exact fun hfits => storesAtCursor_of_emitted henc hmode rfl rfl (fun _ => rfl)
      (by rw [hrule]; exact intEncode_in h hfits)

end

/-- Settles O27: the three commands share one rule; stream ids and offsets start at 0, so only their upper bound can be
exceeded. -/
theorem integerEncode : Obligations.IntegerEncode :=
  ⟨decode_of_encode rfl, decode_of_encode rfl, decode_of_encode rfl, fun _ hmode =>
    ⟨exec_intEncode_out rfl rfl hmode, exec_intEncode_in rfl rfl hmode,
      fun h => exec_intEncode_out rfl rfl hmode (.inr h),
      fun h => exec_intEncode_in (width := sidWidth) (code := sidCode) rfl rfl hmode ⟨Nat.zero_le _, h⟩,
      fun h => exec_intEncode_out rfl rfl hmode (.inr h),
      fun h => exec_intEncode_in (width := offWidth) (code := offCode) rfl rfl hmode ⟨Nat.zero_le _, h⟩⟩⟩

/-! ## Width commands -/

section

variable {i : Instr} {word : CommandWord} {lo hi : Nat} {width code : Nat → Nat} {s : State}

theorem exec_intWidth_out (henc : encode i = .cw word) (hrule : rule i = intWidth lo hi width code)
    (hmode : s.mode = .ready) (h : s.val.toNat < lo ∨ hi < s.val.toNat) :
    exec i s = .next (afterFault word 5 s) :=
  exec_command_fault .valueRange henc hmode (by rw [hrule]; exact intWidth_out h)

theorem exec_intWidth_in (henc : encode i = .cw word) (hrule : rule i = intWidth lo hi width code)
    (hmode : s.mode = .ready) (h : lo ≤ s.val.toNat ∧ s.val.toNat ≤ hi) :
    exec i s = .next { s with
      cmd := word, wid := BitVec.ofNat 4 (width s.val.toNat), code := BitVec.ofNat 3 (code (width s.val.toNat)) } :=
  exec_command_ok henc hmode (by rw [hrule]; exact intWidth_in h)

end

/-- Settles O24: as for the encode commands, the three share one rule. -/
theorem widthCommands : Obligations.WidthCommands :=
  ⟨decode_of_encode rfl, decode_of_encode rfl, decode_of_encode rfl, fun _ hmode =>
    ⟨exec_intWidth_in rfl rfl hmode, exec_intWidth_out rfl rfl hmode,
      fun h => exec_intWidth_in rfl rfl hmode ⟨Nat.zero_le _, h⟩, fun h => exec_intWidth_out rfl rfl hmode (.inr h),
      fun h => exec_intWidth_in rfl rfl hmode ⟨Nat.zero_le _, h⟩,
      fun h => exec_intWidth_out rfl rfl hmode (.inr h)⟩⟩

/-! ## Code-to-width commands -/

section

variable {i : Instr} {word : CommandWord} {top : Nat} {width : Nat → Nat} {s : State}

theorem exec_codeToWidth_out (henc : encode i = .cw word) (hrule : rule i = codeToWidth top width)
    (hmode : s.mode = .ready) (h : top < s.code.toNat) : exec i s = .next (afterFault word 4 s) :=
  exec_command_fault .badWidth henc hmode (by rw [hrule]; exact codeToWidth_out h)

theorem exec_codeToWidth_in (henc : encode i = .cw word) (hrule : rule i = codeToWidth top width)
    (hmode : s.mode = .ready) (h : s.code.toNat ≤ top) :
    exec i s = .next { s with cmd := word, wid := BitVec.ofNat 4 (width s.code.toNat) } :=
  exec_command_ok henc hmode (by rw [hrule]; exact codeToWidth_in h)

/-- The widths of the codes `0 .. top` in the order of the codes: the table the spec prints (R132 to R134). -/
def widthTable (top : Nat) (width : Nat → Nat) : List (BitVec 4) :=
  (List.range (top + 1)).map fun c => BitVec.ofNat 4 (width c)

theorem widthTable_getElem?_eq_some {c : Nat} {x : BitVec 4} (h : (widthTable top width)[c]? = some x) :
    c ≤ top ∧ BitVec.ofNat 4 (width c) = x := by
  rw [widthTable, List.getElem?_map, Option.map_eq_some_iff] at h
  obtain ⟨c', hc', hx⟩ := h
  obtain ⟨hlt, rfl⟩ := List.getElem?_eq_some_iff.1 hc'
  rw [List.getElem_range] at hx
  exact ⟨Nat.le_of_lt_succ (by simpa using hlt), hx⟩

/-- R136, R141, R146: a code that the table lists gives the width the table gives it. -/
theorem exec_codeToWidth_of_table {table : List (BitVec 4)} (henc : encode i = .cw word)
    (hrule : rule i = codeToWidth top width) (htable : table = widthTable top width) (hmode : s.mode = .ready)
    (x : BitVec 4) (h : table[s.code.toNat]? = some x) : exec i s = .next { s with cmd := word, wid := x } := by
  rw [htable] at h
  obtain ⟨hcode, rfl⟩ := widthTable_getElem?_eq_some h
  exact exec_codeToWidth_in henc hrule hmode hcode

end

/-- Settles O25: the literal tables are those of the model's width functions. -/
theorem codeToWidthCommands : Obligations.CodeToWidthCommands :=
  ⟨decode_of_encode rfl, decode_of_encode rfl, decode_of_encode rfl, fun _ hmode =>
    ⟨exec_codeToWidth_of_table rfl rfl rfl hmode, exec_codeToWidth_out rfl rfl hmode,
      exec_codeToWidth_of_table rfl rfl rfl hmode, exec_codeToWidth_out rfl rfl hmode,
      exec_codeToWidth_of_table rfl rfl rfl hmode,
      fun h => exec_codeToWidth_out rfl rfl hmode (h ▸ Nat.lt_succ_self 6)⟩⟩

/-! ## Decode commands -/

section

variable {i : Instr} {word : CommandWord} {widths : List Nat} {lo : Nat} {s : State}

theorem exec_intDecode_badWidth (henc : encode i = .cw word) (hrule : rule i = intDecode widths lo)
    (hmode : s.mode = .ready) (h : s.wid.toNat ∉ widths) : exec i s = .next (afterFault word 4 s) :=
  exec_command_fault .badWidth henc hmode (by rw [hrule]; exact intDecode_badWidth h)

theorem exec_intDecode_short (henc : encode i = .cw word) (hrule : rule i = intDecode widths lo)
    (hmode : s.mode = .ready) (h : s.wid.toNat ∈ widths) (hshort : s.short s.cur.toNat s.wid.toNat) :
    exec i s = .next (afterFault word 2 s) :=
  exec_command_fault .shortBuffer henc hmode (by rw [hrule]; exact intDecode_short h hshort)

theorem exec_intDecode_low (henc : encode i = .cw word) (hrule : rule i = intDecode widths lo)
    (hmode : s.mode = .ready) (h : s.wid.toNat ∈ widths) (hlong : ¬s.short s.cur.toNat s.wid.toNat)
    (hlow : s.memRead s.cur.toNat s.wid.toNat < lo) : exec i s = .next (afterFault word 5 s) :=
  exec_command_fault .valueRange henc hmode (by
    rw [hrule]
    exact intDecode_low h hlong (by rwa [withCmd_memRead]))

theorem exec_intDecode_in (henc : encode i = .cw word) (hrule : rule i = intDecode widths lo)
    (hmode : s.mode = .ready) (h : s.wid.toNat ∈ widths) (hlong : ¬s.short s.cur.toNat s.wid.toNat)
    (hin : lo ≤ s.memRead s.cur.toNat s.wid.toNat) :
    exec i s = .next { s with
      cmd := word, val := BitVec.ofNat 64 (s.memRead s.cur.toNat s.wid.toNat)
      cur := BitVec.ofNat 16 (s.cur.toNat + s.wid.toNat) } :=
  exec_command_ok henc hmode (by
    rw [hrule, ← withCmd_memRead word]
    exact intDecode_in (s := withCmd word s) h hlong (by rwa [withCmd_memRead]))

/-- The three decode commands with their words and width sets. -/
def IsDecoder (dec : Instr) (word : CommandWord) (widths : List Nat) : Prop :=
  dec = .pnDec ∧ word = 0x0012 ∧ widths = [1, 2, 4, 6] ∨ dec = .sidDec ∧ word = 0x001A ∧ widths = [1, 2, 3, 4] ∨
    dec = .offDec ∧ word = 0x0022 ∧ widths = [0, 2, 3, 4, 5, 6, 7]

/-- Each decode command runs the shared rule with a lower bound that refuses only the packet number 0. -/
theorem IsDecoder.rule_eq (h : IsDecoder i word widths) : encode i = .cw word ∧
    ∃ lo, rule i = intDecode widths lo ∧ ∀ v, v < lo ↔ i = .pnDec ∧ v = 0 := by
  obtain ⟨rfl, rfl, rfl⟩ | ⟨rfl, rfl, rfl⟩ | ⟨rfl, rfl, rfl⟩ := h
  · exact ⟨rfl, 1, rfl, fun v => by simp⟩
  · exact ⟨rfl, 0, rfl, fun v => by simp⟩
  · exact ⟨rfl, 0, rfl, fun v => by simp⟩

end

/-- Settles O26: the obligation's clauses are the branches of the shared rule, in its order. -/
theorem integerDecode : Obligations.IntegerDecode := by
  refine ⟨decode_of_encode rfl, decode_of_encode rfl, decode_of_encode rfl, fun dec word widths s hmode hdec => ?_⟩
  obtain ⟨henc, lo, hrule, hlo⟩ := IsDecoder.rule_eq hdec
  refine ⟨exec_intDecode_badWidth henc hrule hmode, fun hwid =>
    ⟨exec_intDecode_short henc hrule hmode hwid, fun hpresent => ?_⟩⟩
  have hlong : ¬s.short s.cur.toNat s.wid.toNat := Nat.not_lt.2 hpresent
  rw [← hlo]
  exact ⟨exec_intDecode_low henc hrule hmode hwid hlong,
    fun hin => exec_intDecode_in henc hrule hmode hwid hlong (Nat.not_lt.1 hin)⟩

/-! ## Successors -/

section

variable {s : State}

/-- A sum of naturals put into VAL is the sum of words. -/
theorem ofNat_toNat_add {w : Nat} (v : BitVec w) (n : Nat) : BitVec.ofNat w (v.toNat + n) = v + BitVec.ofNat w n := by
  rw [BitVec.ofNat_add, BitVec.ofNat_toNat, BitVec.setWidth_eq]

theorem pnSuccessor_out (h : s.val.toNat < 1 ∨ Config.pnMax < s.val.toNat) : pnSuccessor s = .error .valueRange :=
  if_pos h

/-- R139: the largest packet number is followed by 1, never by 0. -/
theorem pnSuccessor_wrap (h : s.val.toNat = Config.pnMax) : pnSuccessor s = .ok { s with val := 1 } := by
  rw [pnSuccessor, if_neg (by rw [h]; decide), if_pos h]

theorem pnSuccessor_add (h : 1 ≤ s.val.toNat ∧ s.val.toNat < Config.pnMax) :
    pnSuccessor s = .ok { s with val := s.val + 1#64 } := by
  rw [pnSuccessor, if_neg (by omega), if_neg (by omega), ofNat_toNat_add]

/-- R144 checks VAL and then the sum; the second check alone decides, as it fails wherever the first does. -/
theorem sidSuccessor_out (h : Config.sidMax < s.val.toNat + 2) : sidSuccessor s = .error .valueRange := by
  rw [sidSuccessor, if_pos h, ite_self]

theorem sidSuccessor_add (h : s.val.toNat + 2 ≤ Config.sidMax) :
    sidSuccessor s = .ok { s with val := s.val + 2#64 } := by
  rw [sidSuccessor, if_neg (by omega), if_neg (by omega), ofNat_toNat_add]

end

/-- Settles O28: one clause for each outcome of the two successor rules. -/
theorem successors : Obligations.Successors :=
  ⟨decode_of_encode rfl, decode_of_encode rfl, fun s hmode =>
    ⟨fun h => exec_command_fault (i := .pnNext) .valueRange rfl hmode (pnSuccessor_out (s := withCmd 0x0014 s) h),
      fun h => exec_command_ok (i := .pnNext) rfl hmode (pnSuccessor_wrap (s := withCmd 0x0014 s) h),
      fun h => exec_command_ok (i := .pnNext) rfl hmode (pnSuccessor_add (s := withCmd 0x0014 s) h),
      fun h => exec_command_fault (i := .sidNext) .valueRange rfl hmode (sidSuccessor_out (s := withCmd 0x001C s) h),
      fun h => exec_command_ok (i := .sidNext) rfl hmode (sidSuccessor_add (s := withCmd 0x001C s) h)⟩⟩

/-! ## The 16-bit float -/

theorem field_zero {w : Nat} (v : BitVec w) (hi : Nat) : field v hi 0 = v.toNat % 2 ^ (hi + 1) := by
  rw [field, Nat.pow_zero, Nat.div_one, Nat.sub_zero]

/-- Settles O32: the rules of both conversions always succeed, and UF16_DEC's operand is the low half word of VAL. -/
theorem floatCommands : Obligations.FloatCommands := by
  refine ⟨decode_of_encode rfl, decode_of_encode rfl, fun s hmode =>
    ⟨?_, exec_command_ok (i := .uf16Enc) rfl hmode rfl⟩⟩
  rw [← field_zero s.val 15]
  exact exec_command_ok (i := .uf16Dec) rfl hmode rfl

end Sys2Proof.Machine
end

section
/-! FT_ENC (42_frame_type.md R163, R164): one equation of the composition for each range of KIND, and what the command
does with a composed byte or with the composition's fault. -/

namespace Sys2Proof.Machine

section

variable {fi : BitVec 16} {s : State}

/-! ## Composition (R164) -/

theorem ftCompose_plain (h : field fi 3 0 ≤ 7) : ftCompose fi = .ok (BitVec.ofNat 8 (field fi 3 0)) := if_pos h

theorem ftCompose_congestion (h : field fi 3 0 = 8) : ftCompose fi = .ok 0x20 := by simp [ftCompose, h]

theorem ftCompose_ack (h : field fi 3 0 = 9) : ftCompose fi =
    .ok (BitVec.ofNat 8 (0x40 + field fi 11 11 * 32 + field fi 13 12 * 8 + field fi 15 14)) := by
  simp [ftCompose, h]

theorem ftCompose_stream (h : field fi 3 0 = 10) (hoff : field fi 8 6 ≠ 7) : ftCompose fi =
    .ok (BitVec.ofNat 8 (0x80 + field fi 4 4 * 64 + field fi 5 5 * 32 + field fi 8 6 * 4 + field fi 10 9)) := by
  simp [ftCompose, h, hoff]

theorem ftCompose_stream_reserved (h : field fi 3 0 = 10) (hoff : field fi 8 6 = 7) :
    ftCompose fi = .error .badWidth := by
  simp [ftCompose, h, hoff]

theorem ftCompose_noKind (h : 11 ≤ field fi 3 0) : ftCompose fi = .error .badOperand := by
  rw [ftCompose, if_neg (by omega), if_neg (by omega), if_neg (by omega), if_neg (by omega)]

/-! ## The command (R163) -/

theorem frameEncode_of_error {e : FaultCode} (h : ftCompose s.finfo = .error e) : frameEncode s = .error e := by
  simp only [frameEncode, h]

theorem frameEncode_of_ok {t : Byte} (h : ftCompose s.finfo = .ok t) :
    frameEncode s = emit [t] { s with tb := t } := by
  simp only [frameEncode, h]

/-- The faults of the composition are the command's. -/
theorem exec_ftEnc_of_error {e : FaultCode} (hmode : s.mode = .ready) (h : ftCompose s.finfo = .error e) :
    exec .ftEnc s = .next (afterFault 0x0031 (faultNumber e).toNat s) :=
  exec_command_fault e rfl hmode (frameEncode_of_error (s := withCmd 0x0031 s) h)

/-- A composed byte is stored at the cursor and put into TB, unless that leaves the buffer. -/
theorem exec_ftEnc_of_ok {t : Byte} (hmode : s.mode = .ready) (h : ftCompose s.finfo = .ok t) :
    (s.cfg.bufSize < s.cur.toNat + 1 → exec .ftEnc s = .next (afterFault 0x0031 3 s)) ∧
    (s.cur.toNat + 1 ≤ s.cfg.bufSize → StoresAtCursor .ftEnc 0x0031 s { s with tb := t } [t]) := by
  have hrule : rule .ftEnc (withCmd 0x0031 s) = emit [t] (withCmd 0x0031 { s with tb := t }) :=
    frameEncode_of_ok (s := withCmd 0x0031 s) h
  constructor
  · exact fun hfull => exec_command_fault .noSpace rfl hmode (hrule.trans (emit_full hfull))
  · exact fun hfits => storesAtCursor_of_emitted rfl hmode rfl rfl (fun _ => rfl) (hrule.trans (emit_fits hfits))

end

/-- Settles O36: every KIND has one equation of the composition, and the command follows from its value. -/
theorem FrameType.frameEncode : Obligations.FrameEncode := by
  refine ⟨decode_of_encode rfl, fun s hmode => ⟨fun h => ?_, fun ⟨h, hoff⟩ => ?_, fun t ht => ?_⟩⟩
  · exact exec_ftEnc_of_error hmode (ftCompose_noKind h)
  · exact exec_ftEnc_of_error hmode (ftCompose_stream_reserved h hoff)
  · refine exec_ftEnc_of_ok hmode ?_
    obtain ⟨h, rfl⟩ | ⟨h, rfl⟩ | ⟨h, rfl⟩ | ⟨h, hoff, rfl⟩ := ht
    · exact ftCompose_plain h
    · exact ftCompose_congestion h
    · exact ftCompose_ack h
    · exact ftCompose_stream h hoff

end Sys2Proof.Machine
end

section
/-! Range lists (43_ack.md R170 to R174): the list that the registers hold, entry by entry, the validity predicate as
the source's conditions, and the two commands that answer in COND. -/

namespace Sys2Proof.Machine

/-! ## The list in the registers (R170) -/

@[simp] theorem State.ranges_length (s : State) : s.ranges.length = s.nranges.toNat := by
  rw [State.ranges, List.length_map, List.length_range]

theorem State.ranges_getElem? {s : State} {i : Nat} (h : i < s.nranges.toNat) :
    s.ranges[i]? = some ⟨(s.rangeFirstAt i).toNat, (s.rangeLastAt i).toNat⟩ := by
  rw [State.ranges, List.getElem?_map, List.getElem?_range h, Option.map_some]

/-- A property of some range is one of some index below NRANGES. -/
theorem State.exists_mem_ranges {s : State} {p : AckRange → Prop} :
    (∃ r ∈ s.ranges, p r) ↔ ∃ i, i < s.nranges.toNat ∧ p ⟨(s.rangeFirstAt i).toNat, (s.rangeLastAt i).toNat⟩ := by
  simp [State.ranges]

/-! ## Validity (R171) -/

/-- The model compares each range with the next; the source speaks of two consecutive indices. -/
theorem rangesDescend_iff (rs : List AckRange) : rangesDescend rs = true ↔
    ∀ i r q, rs[i]? = some r → rs[i + 1]? = some q → q.last + 2 ≤ r.first := by
  induction rs with
  | nil => simp [rangesDescend]
  | cons a rs ih =>
    cases rs with
    | nil => simp [rangesDescend]
    | cons b rs =>
      rw [rangesDescend, Bool.and_eq_true, decide_eq_true_eq, ih]
      constructor
      · rintro ⟨hhead, htail⟩ (_ | i) r q hr hq
        · cases hr
          cases hq
          exact hhead
        · exact htail i r q hr hq
      · exact fun h => ⟨h 0 a b rfl rfl, fun i => h (i + 1)⟩

theorem ackValid_cons_iff {L : Nat} {r : AckRange} {rs : List AckRange} : ackValid L (r :: rs) = true ↔
    rs ≠ [] ∧ r.last = L ∧ (∀ x ∈ r :: rs, x.first ≤ x.last) ∧ rangesDescend (r :: rs) = true := by
  cases rs with
  | nil => simp [ackValid]
  | cons q rs => simp [ackValid, and_assoc]

/-- Settles O38: a list with a first range is valid just where `ackValid_cons_iff` says, and descends by indices. -/
theorem ackValidMeansTheSourcesConditions : Obligations.AckValidMeansTheSourcesConditions := by
  intro L rs
  cases rs with
  | nil => exact iff_of_true rfl (.inl rfl)
  | cons r rs =>
    have hlength : 2 ≤ (r :: rs).length ↔ rs ≠ [] := by
      rw [List.length_cons, ← List.length_pos_iff, Nat.lt_iff_add_one_le, Nat.succ_le_succ_iff]
    rw [ackValid_cons_iff, rangesDescend_iff, hlength]
    simp

/-! ## The predicates (R172 to R174) -/

theorem condOf_eq_ite (b : Bool) : condOf b = if b = true then 1 else 0 := by cases b <;> rfl

theorem ackAcks_iff (s : State) (n : Nat) : ackAcks s n = true ↔
    (s.lowest.toNat ≤ n ∧ n ≤ s.largest.toNat) ∧
      (s.nranges = 0 ∨ ∃ i, i < s.nranges.toNat ∧ (s.rangeFirstAt i).toNat ≤ n ∧ n ≤ (s.rangeLastAt i).toNat) := by
  rw [ackAcks]
  split_ifs with hout hempty
  · exact iff_of_false id fun h => by omega
  · exact iff_of_true rfl ⟨by omega, .inl hempty⟩
  · have hin : s.lowest.toNat ≤ n ∧ n ≤ s.largest.toNat := by omega
    rw [and_iff_right hin, or_iff_right hempty, ← State.exists_mem_ranges (p := fun r => r.first ≤ n ∧ n ≤ r.last)]
    simp

/-- Settles O39: both rules answer at once, and COND holds the truth of what they evaluate. -/
theorem ackPredicates : Obligations.AckPredicates := by
  refine ⟨decode_of_encode rfl, decode_of_encode rfl, fun s hmode =>
    ⟨⟨s.ranges_length, fun i hi => State.ranges_getElem? hi⟩, ?_, ?_⟩⟩
  · rw [← condOf_eq_ite]
    exact exec_command_ok (i := .ackValidate) rfl hmode rfl
  · have hexec : exec .ackAcks s = .next { s with cmd := 0x0041, cond := condOf (ackAcks s s.val.toNat) } :=
      exec_command_ok (i := .ackAcks) rfl hmode rfl
    rw [hexec, condOf_eq_ite]
    exact ⟨fun h => by rw [if_pos ((ackAcks_iff ..).2 h)], fun h => by rw [if_neg (mt (ackAcks_iff ..).1 h)]⟩

end Sys2Proof.Machine
end

section
/-! The pairs of an ACK frame (43_ack.md R175 item 6, R176): their bytes, one equation of `ackPairs` for each kind of
pair, and the merge of continuation pairs. -/

namespace Sys2Proof.Machine

/-! ## Bytes of pairs -/

theorem pairBytes_eq_flatten (abw : Nat) (ps : List (Nat × Nat)) :
    pairBytes abw ps = (ps.map fun q => BitVec.ofNat 8 q.1 :: leBytes abw q.2).flatten := by
  induction ps with
  | nil => rfl
  | cons q ps ih => rw [pairBytes, ih, List.map_cons, List.flatten_cons, List.cons_append]

theorem pairBytes_append (abw : Nat) (ps qs : List (Nat × Nat)) :
    pairBytes abw (ps ++ qs) = pairBytes abw ps ++ pairBytes abw qs := by
  simp only [pairBytes_eq_flatten, List.map_append, List.flatten_append]

@[simp] theorem pairBytes_length (abw : Nat) (ps : List (Nat × Nat)) :
    (pairBytes abw ps).length = ps.length * (1 + abw) := by
  induction ps with
  | nil => simp [pairBytes]
  | cons q ps ih =>
    rw [pairBytes, List.length_cons, List.length_append, leBytes_length, ih, List.length_cons, Nat.succ_mul]
    omega

section

variable {s : State} {abw n p acc pf gap run : Nat}

/-- The gap and the block length of a pair, where its bytes stand and its fields hold them. -/
theorem holds_pairBytes_cons {ps : List (Nat × Nat)} (hgap : gap ≤ 255) (hrun : run < 256 ^ abw)
    (h : Holds s p (pairBytes abw ((gap, run) :: ps))) :
    (s.byte p).toNat = gap ∧ s.memRead (p + 1) abw = run ∧ Holds s (p + (1 + abw)) (pairBytes abw ps) := by
  obtain ⟨hbyte, hrest⟩ := holds_cons.1 h
  obtain ⟨hlength, htail⟩ := holds_append.1 hrest
  rw [leBytes_length, Nat.add_assoc] at htail
  refine ⟨?_, holds_memRead hlength hrun, htail⟩
  rw [hbyte, BitVec.toNat_ofNat]
  exact Nat.mod_eq_of_lt (by omega)

/-! ## One pair (R176) -/

theorem ackPairs_cut (h : s.len.toNat < p + (1 + abw)) : ackPairs s abw (n + 1) p acc pf = .error .shortBuffer :=
  if_pos h

theorem ackPairs_continuation (h : p + (1 + abw) ≤ s.len.toNat) (hgap : (s.byte p).toNat = gap)
    (hrun : s.memRead (p + 1) abw = 0) :
    ackPairs s abw (n + 1) p acc pf = ackPairs s abw n (p + (1 + abw)) (acc + gap) pf := by
  rw [ackPairs, if_neg (Nat.not_lt.2 h), hgap, hrun, if_pos rfl, Nat.add_assoc p]

theorem ackPairs_overrun (h : p + (1 + abw) ≤ s.len.toNat) (hgap : (s.byte p).toNat = gap)
    (hrun : s.memRead (p + 1) abw = run) (hpos : run ≠ 0) (hlow : pf ≤ acc + gap + run) :
    ackPairs s abw (n + 1) p acc pf = .error .badAck := by
  rw [ackPairs, if_neg (Nat.not_lt.2 h), hgap, hrun, if_neg hpos, if_pos hlow]

theorem ackPairs_run (h : p + (1 + abw) ≤ s.len.toNat) (hgap : (s.byte p).toNat = gap)
    (hrun : s.memRead (p + 1) abw = run) (hpos : run ≠ 0) (hlow : acc + gap + run < pf) :
    ackPairs s abw (n + 1) p acc pf =
      (ackPairs s abw n (p + (1 + abw)) 0 (pf - (acc + gap) - run)).map
        fun a => (⟨pf - (acc + gap) - run, pf - (acc + gap) - 1⟩ :: a.1, a.2) := by
  rw [ackPairs, if_neg (Nat.not_lt.2 h), hgap, hrun, if_neg hpos, if_neg (Nat.not_le.2 hlow), Nat.add_assoc p]
  cases ackPairs s abw n (p + (1 + abw)) 0 (pf - (acc + gap) - run) <;> rfl

/-! ## Continuation pairs (R176) -/

/-- A series of continuation pairs adds its gaps to those before it. -/
theorem ackPairs_continuations {gs : List Nat} (hgs : ∀ x ∈ gs, x ≤ 255)
    (h : Holds s p (pairBytes abw (gs.map fun x => (x, 0)))) (hlen : p + gs.length * (1 + abw) ≤ s.len.toNat) :
    ackPairs s abw (gs.length + n) p acc pf =
      ackPairs s abw n (p + gs.length * (1 + abw)) (acc + gs.sum) pf := by
  induction gs generalizing p acc with
  | nil => simp
  | cons g gs ih =>
    obtain ⟨hg, hrest⟩ := List.forall_mem_cons.1 hgs
    obtain ⟨hgap, hrun, htail⟩ := holds_pairBytes_cons hg (Nat.pow_pos (by decide)) h
    rw [List.length_cons, Nat.succ_mul] at hlen ⊢
    rw [Nat.add_right_comm, ackPairs_continuation (by omega) hgap hrun, ih hrest htail (by omega), List.sum_cons]
    congr 1 <;> omega

/-- Settles O43: the series leaves the sum of its gaps, and the last pair is read with them. -/
theorem continuationPairsMerge : Obligations.ContinuationPairsMerge := by
  intro s abw p pf g len gs hgs hg hlen hbytes hfit
  rw [pairBytes_append] at hbytes
  obtain ⟨hseries, hlast⟩ := holds_append.1 hbytes
  rw [pairBytes_length, List.length_map] at hlast
  obtain ⟨hgap, hrun, -⟩ := holds_pairBytes_cons hg hlen hlast
  rw [Nat.succ_mul, ← Nat.add_assoc] at hfit ⊢
  have hmerge : ackPairs s abw (gs.length + 1) p 0 pf = ackPairs s abw 1 (p + gs.length * (1 + abw)) gs.sum pf := by
    rw [ackPairs_continuations hgs hseries (by omega), Nat.zero_add]
  rw [hmerge]
  refine ⟨fun hzero => ?_, fun hpos hlow => ?_, fun hpos hlow => ?_⟩
  · rw [ackPairs_continuation hfit hgap (hrun.trans hzero), ackPairs]
  · exact ackPairs_overrun hfit hgap hrun (by omega) hlow
  · rw [ackPairs_run hfit hgap hrun (by omega) hlow, ackPairs]
    rfl

end

end Sys2Proof.Machine
end

section
/-! The pairs of an ACK frame on the wire (43_ack.md R175, R176): what `ackPairs` answers in the terms of `AckWire`, the
ranges that the pairs name, and when the list they give is valid. Throughout, `pf` is the `first` of the last run and
`acc` the gap since, so that `pf + span = first + acc` (R176's loop invariant). -/

namespace Sys2Proof.Machine

/-- The address of pair `k`. -/
def AckWire.pairAt (x : AckWire) (k : Nat) : Nat := x.pairs + k * (1 + x.width)

/-- The run that pair `k` names, if it has a block length (R176). -/
def AckWire.rangeOf (x : AckWire) (s : State) (k : Nat) : AckRange :=
  ⟨x.first - x.span s (k + 1), x.first - x.span s k - x.gap s k - 1⟩

/-- The runs that the `n` pairs from pair `k` on name. -/
def AckWire.rangesFrom (x : AckWire) (s : State) (k n : Nat) : List AckRange :=
  ((List.range' k n).filter fun i => x.run s i ≠ 0).map (x.rangeOf s)

/-- The run that ends at the largest acknowledged (R176). -/
def AckWire.head (x : AckWire) : AckRange := ⟨x.first, x.largest⟩

/-- A claim about all indices from `k` on, told apart at `k`. -/
theorem forall_ge_iff {k : Nat} {p : Nat → Prop} : (∀ j, k ≤ j → p j) ↔ p k ∧ ∀ j, k + 1 ≤ j → p j := by
  constructor
  · exact fun h => ⟨h k le_rfl, fun j hj => h j (Nat.le_of_succ_le hj)⟩
  · rintro ⟨hk, hlater⟩ j hj
    obtain rfl | hlt := Nat.eq_or_lt_of_le hj
    · exact hk
    · exact hlater j hlt

section

variable {s : State} {x : AckWire} {k n acc pf : Nat} {r : AckRange}

@[simp] theorem AckWire.rangeOf_first : (x.rangeOf s k).first = x.first - x.span s (k + 1) := rfl
@[simp] theorem AckWire.rangeOf_last : (x.rangeOf s k).last = x.first - x.span s k - x.gap s k - 1 := rfl
@[simp] theorem AckWire.head_first : x.head.first = x.first := rfl
@[simp] theorem AckWire.head_last : x.head.last = x.largest := rfl

/-! ## Sums and lists over the pairs -/

theorem AckWire.byte_pairAt : (s.byte (x.pairAt k)).toNat = x.gap s k := rfl

theorem AckWire.memRead_pairAt : s.memRead (x.pairAt k + 1) x.width = x.run s k := rfl

theorem AckWire.pairAt_succ : x.pairAt (k + 1) = x.pairAt k + (1 + x.width) := by
  rw [pairAt, pairAt, Nat.succ_mul, Nat.add_assoc]

theorem AckWire.pairAt_mono {j : Nat} (h : k ≤ j) : x.pairAt k ≤ x.pairAt j :=
  Nat.add_le_add_left (Nat.mul_le_mul_right _ h) _

@[simp] theorem AckWire.span_zero : x.span s 0 = 0 := rfl

theorem AckWire.span_succ : x.span s (k + 1) = x.span s k + (x.gap s k + x.run s k) := by
  simp [span, List.range_succ]

theorem AckWire.rangesFrom_zero : x.rangesFrom s k 0 = [] := rfl

theorem AckWire.rangesFrom_continuation (h : x.run s k = 0) :
    x.rangesFrom s k (n + 1) = x.rangesFrom s (k + 1) n := by
  simp [rangesFrom, List.range'_succ, h]

theorem AckWire.rangesFrom_run (h : x.run s k ≠ 0) :
    x.rangesFrom s k (n + 1) = x.rangeOf s k :: x.rangesFrom s (k + 1) n := by
  simp [rangesFrom, List.range'_succ, h]

theorem AckWire.rangesFrom_add (m : Nat) :
    x.rangesFrom s k (m + n) = x.rangesFrom s k m ++ x.rangesFrom s (k + m) n := by
  rw [rangesFrom, ← List.range'_append_1, List.filter_append, List.map_append]
  rfl

theorem AckWire.rangesFrom_length : (x.rangesFrom s 0 n).length = x.runs s n := by
  rw [rangesFrom, List.length_map, ← List.countP_eq_length_filter, ← List.range_eq_range', runs]

/-- The run of pair `k` stands behind those of the pairs before it. -/
theorem AckWire.rangesFrom_getElem? (hk : k < n) (hrun : x.run s k ≠ 0) :
    (x.rangesFrom s 0 n)[x.runs s k]? = some (x.rangeOf s k) := by
  obtain ⟨m, rfl⟩ : ∃ m, n = k + (m + 1) := ⟨n - k - 1, by omega⟩
  rw [rangesFrom_add, Nat.zero_add, rangesFrom_run hrun, List.getElem?_append_right (by rw [rangesFrom_length]),
    rangesFrom_length, Nat.sub_self, List.getElem?_cons_zero]

theorem AckWire.mem_rangesFrom : r ∈ x.rangesFrom s 0 n ↔ ∃ j, j < n ∧ x.run s j ≠ 0 ∧ x.rangeOf s j = r := by
  simp [rangesFrom, and_assoc]

/-! ## What the parser answers -/

/-- Of a pair below LEN that reaches no number below 1, the parser takes the run it names and keeps the invariant. -/
theorem ackPairs_wire_step (hk : k < x.count) (hpf : pf + x.span s k = x.first + acc)
    (hfit : x.pairAt (k + 1) ≤ s.len.toNat) (hstay : ¬x.overruns s k) :
    ∃ acc' pf', pf' + x.span s (k + 1) = x.first + acc' ∧
      ackPairs s x.width (n + 1) (x.pairAt k) acc pf =
        (ackPairs s x.width n (x.pairAt (k + 1)) acc' pf').map fun a => (x.rangesFrom s k 1 ++ a.1, a.2) := by
  have hspan := x.span_succ (s := s) (k := k)
  have hnext := x.pairAt_succ (k := k)
  by_cases hrun : x.run s k = 0
  · refine ⟨acc + x.gap s k, pf, by omega, ?_⟩
    rw [ackPairs_continuation (hnext ▸ hfit) AckWire.byte_pairAt hrun, ← hnext, AckWire.rangesFrom_continuation hrun]
    cases ackPairs s x.width n (x.pairAt (k + 1)) (acc + x.gap s k) pf <;> rfl
  · have hlow : x.span s (k + 1) < x.first := Nat.lt_of_not_le fun hle => hstay ⟨hk, hfit, hrun, hle⟩
    refine ⟨0, pf - (acc + x.gap s k) - x.run s k, by omega, ?_⟩
    have hrange : x.rangeOf s k =
        ⟨pf - (acc + x.gap s k) - x.run s k, pf - (acc + x.gap s k) - 1⟩ := by
      rw [AckWire.rangeOf, AckRange.mk.injEq]
      omega
    rw [ackPairs_run (hnext ▸ hfit) AckWire.byte_pairAt AckWire.memRead_pairAt hrun (by omega), ← hnext,
      AckWire.rangesFrom_run hrun, hrange]
    rfl

/-- A run that reaches packet number 0 or below stops the parse, whatever follows it. -/
theorem ackPairs_of_overruns (hcount : k + n = x.count) (hpf : pf + x.span s k = x.first + acc) {j : Nat} (hkj : k ≤ j)
    (hj : x.overruns s j) : ackPairs s x.width n (x.pairAt k) acc pf = .error .badAck := by
  have ⟨hjcount, hjfit, _, _⟩ := hj
  induction n generalizing k acc pf with
  | zero => omega
  | succ n ih =>
    have hfit : x.pairAt (k + 1) ≤ s.len.toNat := (AckWire.pairAt_mono (Nat.succ_le_succ hkj)).trans hjfit
    by_cases hk : x.overruns s k
    · obtain ⟨-, -, hrun, hlow⟩ := hk
      have hspan := x.span_succ (s := s) (k := k)
      exact ackPairs_overrun (AckWire.pairAt_succ (x := x) ▸ hfit) AckWire.byte_pairAt AckWire.memRead_pairAt hrun
        (by omega)
    · obtain ⟨acc', pf', hpf', heq⟩ := ackPairs_wire_step (n := n) (by omega) hpf hfit hk
      have hne : k ≠ j := fun h => hk (h ▸ hj)
      rw [heq, ih (by omega) hpf' (by omega)]
      rfl

theorem ackPairs_of_cut (hcount : k + n = x.count) (hpf : pf + x.span s k = x.first + acc)
    (hstay : ∀ j, ¬x.overruns s j) (hk : x.pairAt k ≤ s.len.toNat) (hcut : s.len.toNat < x.pairAt x.count) :
    ackPairs s x.width n (x.pairAt k) acc pf = .error .shortBuffer := by
  induction n generalizing k acc pf with
  | zero =>
    rw [Nat.add_zero] at hcount
    rw [hcount] at hk
    omega
  | succ n ih =>
    by_cases hfit : x.pairAt (k + 1) ≤ s.len.toNat
    · obtain ⟨acc', pf', hpf', heq⟩ := ackPairs_wire_step (n := n) (by omega) hpf hfit (hstay k)
      rw [heq, ih (by omega) hpf' hfit]
      rfl
    · exact ackPairs_cut (by rw [← AckWire.pairAt_succ]; omega)

theorem ackPairs_of_complete (hcount : k + n = x.count) (hpf : pf + x.span s k = x.first + acc)
    (hstay : ∀ j, ¬x.overruns s j) (hfit : x.pairAt x.count ≤ s.len.toNat) :
    ackPairs s x.width n (x.pairAt k) acc pf = .ok (x.rangesFrom s k n, x.pairAt x.count) := by
  induction n generalizing k acc pf with
  | zero => rw [← hcount]; rfl
  | succ n ih =>
    have hnext : x.pairAt (k + 1) ≤ s.len.toNat := (AckWire.pairAt_mono (by omega)).trans hfit
    obtain ⟨acc', pf', hpf', heq⟩ := ackPairs_wire_step (n := n) (by omega) hpf hnext (hstay k)
    rw [heq, ih (by omega) hpf', Nat.add_comm n 1, AckWire.rangesFrom_add]
    rfl

/-! ## Validity of the list -/

/-- The numbers that a pair below LEN covers stay above 0, unless it overruns. -/
theorem AckWire.span_lt_first (hk : k < x.count) (hrun : x.run s k ≠ 0) (hfit : x.pairAt x.count ≤ s.len.toNat)
    (hstay : ∀ j, ¬x.overruns s j) : x.span s (k + 1) < x.first :=
  Nat.lt_of_not_le fun hle => hstay k ⟨hk, (pairAt_mono hk).trans hfit, hrun, hle⟩

/-- Two consecutive runs have a gap between them just where the pairs between them have one (R171, R176). -/
theorem rangesDescend_rangesFrom_iff (hcount : k + n = x.count) (hr : r.first + x.span s k = x.first + acc)
    (hgap : x.gapUpTo s k = x.gap s k + acc) (hstay : ∀ j, ¬x.overruns s j)
    (hfit : x.pairAt x.count ≤ s.len.toNat) :
    rangesDescend (r :: x.rangesFrom s k n) = true ↔
      ∀ j, k ≤ j → j < x.count → x.run s j ≠ 0 → x.gapUpTo s j ≠ 0 := by
  induction n generalizing k acc r with
  | zero => exact iff_of_true rfl fun j hkj hj => by omega
  | succ n ih =>
    have hspan := x.span_succ (s := s) (k := k)
    rw [forall_ge_iff]
    by_cases hrun : x.run s k = 0
    · have hnext : x.gapUpTo s (k + 1) = x.gap s (k + 1) + x.gapUpTo s k := by rw [AckWire.gapUpTo, if_pos hrun]
      rw [AckWire.rangesFrom_continuation hrun, ih (by omega) (by omega) hnext]
      exact (and_iff_right fun _ h => absurd hrun h).symm
    · have hnext : x.gapUpTo s (k + 1) = x.gap s (k + 1) + 0 := by rw [AckWire.gapUpTo, if_neg hrun]
      have hlow := AckWire.span_lt_first (by omega) hrun hfit hstay
      have hfirst : (x.rangeOf s k).first + x.span s (k + 1) = x.first + 0 := by
        rw [AckWire.rangeOf_first]
        omega
      rw [AckWire.rangesFrom_run hrun, rangesDescend, Bool.and_eq_true, decide_eq_true_eq,
        ih (by omega) hfirst hnext, AckWire.rangeOf_last]
      refine and_congr_left fun _ => ⟨fun _ _ _ => by omega, fun h => ?_⟩
      have hpos := h (by omega) hrun
      omega

/-- R176's last check fails just where the pairs name no run, or two without a gap between them. -/
theorem ackValid_head_iff (hfit : x.pairAt x.count ≤ s.len.toNat) (hfb : 1 ≤ x.firstBlock)
    (hL : x.firstBlock ≤ x.largest) (hstay : ∀ j, ¬x.overruns s j) :
    ackValid x.largest (x.head :: x.rangesFrom s 0 x.count) = true ↔ ¬x.invalid s := by
  have hnames : x.rangesFrom s 0 x.count ≠ [] ↔ ¬∀ k, k < x.count → x.run s k = 0 := by
    simp [AckWire.rangesFrom]
  have hordered : ∀ r ∈ x.head :: x.rangesFrom s 0 x.count, r.first ≤ r.last := by
    refine List.forall_mem_cons.2 ⟨?_, fun r hr => ?_⟩
    · rw [AckWire.head_first, AckWire.first, AckWire.head_last]
      omega
    · obtain ⟨j, hj, hrun, rfl⟩ := AckWire.mem_rangesFrom.1 hr
      have hspan := x.span_succ (s := s) (k := j)
      have hlow := AckWire.span_lt_first hj hrun hfit hstay
      rw [AckWire.rangeOf_first, AckWire.rangeOf_last]
      omega
  rw [ackValid_cons_iff, and_iff_right AckWire.head_last, and_iff_right hordered, hnames,
    rangesDescend_rangesFrom_iff (k := 0) (acc := 0) (Nat.zero_add _) rfl rfl hstay hfit, AckWire.invalid, not_or]
  simp

end

end Sys2Proof.Machine
end

section
/-! ACK_DEC (43_ack.md R175 to R177): where `ack_parse` stops on a frame read field by field, and what the command does
with its answer. -/

namespace Sys2Proof.Machine

section

variable {s : State} {x : AckWire} {h : Nat} {a : AckFrame}

/-! ## The timestamp section (R175, items 7 and 8) -/

theorem ackTimestamps_cut {p : Nat} (hcut : s.len.toNat < p + 1 + stampBytes (s.byte p).toNat) :
    ackTimestamps s p = .error .shortBuffer := by
  by_cases hcount : s.len.toNat < p + 1
  · exact if_pos hcount
  · exact (if_neg hcount).trans (if_pos hcut)

theorem ackTimestamps_complete {p : Nat} (hfit : p + 1 + stampBytes (s.byte p).toNat ≤ s.len.toNat) :
    ackTimestamps s p = .ok (p + 1 + stampBytes (s.byte p).toNat) :=
  have hcount : p + 1 ≤ s.len.toNat := (Nat.le_add_right _ _).trans hfit
  (if_neg (Nat.not_lt.2 hcount)).trans (if_neg (Nat.not_lt.2 hfit))

/-! ## From the first block on (R176) -/

section

variable {L dc abw count p : Nat} {n : Bool}

theorem ackBlocks_cut (hcut : s.len.toNat < p + abw) : ackBlocks s L dc n abw count p = .error .shortBuffer :=
  if_pos hcut

theorem ackBlocks_badFirst (hfit : p + abw ≤ s.len.toNat) (hbad : s.memRead p abw = 0 ∨ L < s.memRead p abw) :
    ackBlocks s L dc n abw count p = .error .badAck := by
  rw [ackBlocks, if_neg (Nat.not_lt.2 hfit), if_pos hbad]

variable (hfit : p + abw ≤ s.len.toNat) (hgood : ¬(s.memRead p abw = 0 ∨ L < s.memRead p abw))
include hfit hgood

theorem ackBlocks_of_pairs_error {e : FaultCode}
    (hpairs : ackPairs s abw count (p + abw) 0 (L - s.memRead p abw + 1) = .error e) :
    ackBlocks s L dc n abw count p = .error e := by
  rw [ackBlocks, if_neg (Nat.not_lt.2 hfit), if_neg hgood]
  simp only [hpairs]

variable {rest : List AckRange} {q : Nat}
  (hpairs : ackPairs s abw count (p + abw) 0 (L - s.memRead p abw + 1) = .ok (rest, q))
include hpairs

theorem ackBlocks_of_stamps_error {e : FaultCode} (hstamps : ackTimestamps s q = .error e) :
    ackBlocks s L dc n abw count p = .error e := by
  rw [ackBlocks, if_neg (Nat.not_lt.2 hfit), if_neg hgood]
  simp only [hpairs, hstamps]

theorem ackBlocks_of_stamps_ok {next : Nat} (hstamps : ackTimestamps s q = .ok next) :
    ackBlocks s L dc n abw count p =
      if n = false then .ok ⟨L, L - s.memRead p abw + 1, uf16Dec dc, [], next⟩
      else if ackValid L (⟨L - s.memRead p abw + 1, L⟩ :: rest) = false then .error .badAck
      else .ok ⟨L, lastFirst ⟨L - s.memRead p abw + 1, L⟩ rest, uf16Dec dc, ⟨L - s.memRead p abw + 1, L⟩ :: rest,
        next⟩ := by
  rw [ackBlocks, if_neg (Nat.not_lt.2 hfit), if_neg hgood]
  simp only [hpairs, hstamps]

end

/-! ## The type byte and the largest acknowledged (R176) -/

theorem ackParse_cut (hcut : s.len.toNat < h + 1) : ackParse s h = .error .shortBuffer := if_pos hcut

theorem ackParse_badType (hfit : h + 1 ≤ s.len.toNat) (htype : field (s.byte h) 7 6 ≠ 1) :
    ackParse s h = .error .badFrameType := by
  rw [ackParse, if_neg (Nat.not_lt.2 hfit)]
  exact if_pos htype

/-- A type byte that is an ACK frame's, below LEN. -/
structure AckTyped (s : State) (h : Nat) : Prop where
  fits : h + 1 ≤ s.len.toNat
  type : field (s.byte h) 7 6 = 1

theorem ackParse_largest_cut (ht : AckTyped s h) (hcut : s.len.toNat < h + 1 + codedWidth (s.byte h) 4 3) :
    ackParse s h = .error .shortBuffer := by
  rw [ackParse, if_neg (Nat.not_lt.2 ht.fits)]
  exact (if_neg (not_not.2 ht.type)).trans (if_pos hcut)

theorem ackParse_largest_zero (ht : AckTyped s h) (hfit : h + 1 + codedWidth (s.byte h) 4 3 ≤ s.len.toNat)
    (hzero : (ackWireAt s h).largest = 0) : ackParse s h = .error .valueRange := by
  rw [ackParse, if_neg (Nat.not_lt.2 ht.fits)]
  exact (if_neg (not_not.2 ht.type)).trans ((if_neg (Nat.not_lt.2 hfit)).trans (if_pos hzero))

/-- The frame at `h` up to the largest acknowledged: nothing there raises a fault. -/
structure AckHead (s : State) (h : Nat) : Prop extends AckTyped s h where
  largestFits : h + 1 + codedWidth (s.byte h) 4 3 ≤ s.len.toNat
  largestPos : (ackWireAt s h).largest ≠ 0

/-- The address of the first block length (R175, item 5). -/
def ackFirstAt (s : State) (h : Nat) : Nat :=
  h + 3 + codedWidth (s.byte h) 4 3 + if (s.byte h).getLsbD 5 then 1 else 0

theorem ackWireAt_pairs : (ackWireAt s h).pairs = ackFirstAt s h + (ackWireAt s h).width := rfl

/-- The delay and the count are read next, and can only be cut off. -/
theorem ackParse_of_head (hh : AckHead s h) (hx : x = ackWireAt s h) :
    ackParse s h =
      if s.len.toNat < ackFirstAt s h then .error .shortBuffer
      else ackBlocks s x.largest x.delayCode x.missing x.width x.count (ackFirstAt s h) := by
  subst hx
  rw [ackParse, if_neg (Nat.not_lt.2 hh.fits)]
  refine (if_neg (not_not.2 hh.type)).trans ((if_neg (Nat.not_lt.2 hh.largestFits)).trans
    ((if_neg hh.largestPos).trans ?_))
  have hdelay : h + 1 + pnOfCode (field (s.byte h) 4 3) + 2 = h + 3 + codedWidth (s.byte h) 4 3 := by
    rw [codedWidth]
    omega
  simp only [State.short, hdelay]
  cases hn : (s.byte h).getLsbD 5 with
  | false =>
    simp only [ackWireAt, ackFirstAt, hn, codedWidth, if_true, Bool.false_eq_true, if_false, Nat.add_zero]
  | true =>
    simp only [ackWireAt, ackFirstAt, hn, codedWidth, if_true, Bool.true_eq_false, if_false]
    exact ite_eq_right_iff.2 fun hcut => (if_pos (by omega)).symm

theorem ackParse_first_cut (hh : AckHead s h) (hx : x = ackWireAt s h) (hcut : s.len.toNat < x.pairs) :
    ackParse s h = .error .shortBuffer := by
  rw [ackParse_of_head hh hx]
  split_ifs
  · rfl
  · exact ackBlocks_cut (by rwa [hx] at hcut ⊢)

theorem ackParse_first_bad (hh : AckHead s h) (hx : x = ackWireAt s h) (hfit : x.pairs ≤ s.len.toNat)
    (hbad : x.firstBlock = 0 ∨ x.largest < x.firstBlock) : ackParse s h = .error .badAck := by
  subst hx
  rw [ackWireAt_pairs] at hfit
  rw [ackParse_of_head hh rfl, if_neg (by omega), ackBlocks_badFirst hfit hbad]

/-- The frame at `h`, read as `x`, up to its first block: nothing there raises a fault. -/
structure AckStart (s : State) (h : Nat) (x : AckWire) : Prop extends AckHead s h where
  wire : x = ackWireAt s h
  firstFits : x.pairs ≤ s.len.toNat
  firstPos : 1 ≤ x.firstBlock
  firstLe : x.firstBlock ≤ x.largest

/-- A frame that lies below LEN has a start that does. -/
theorem ackStart_of_complete (hx : x = ackWireAt s h) (htype : field (s.byte h) 7 6 = 1) (hfit : x.next ≤ s.len.toNat)
    (hpos : 1 ≤ x.firstBlock) (hle : x.firstBlock ≤ x.largest) : AckStart s h x := by
  subst hx
  have hnext : (ackWireAt s h).pairs ≤ (ackWireAt s h).next :=
    (Nat.le_add_right _ _).trans ((Nat.le_add_right _ 1).trans (Nat.le_add_right _ _))
  have hpairs := ackWireAt_pairs (s := s) (h := h)
  rw [ackFirstAt] at hpairs
  exact ⟨⟨⟨by omega, htype⟩, by omega, by omega⟩, rfl, hnext.trans hfit, hpos, hle⟩

/-! ## The pairs and what follows them (R176) -/

/-- The parse of a frame whose start is good goes on with its pairs. -/
theorem AckStart.ackParse_eq (hs : AckStart s h x) :
    ackParse s h = ackBlocks s x.largest x.delayCode x.missing x.width x.count (ackFirstAt s h) := by
  obtain rfl := hs.wire
  have hfits := hs.firstFits
  rw [ackWireAt_pairs] at hfits
  rw [ackParse_of_head hs.toAckHead rfl, if_neg (by omega)]

theorem AckStart.not_badFirst (hs : AckStart s h x) : ¬(x.firstBlock = 0 ∨ x.largest < x.firstBlock) := by
  have hpos := hs.firstPos
  have hle := hs.firstLe
  omega

theorem AckWire.pairAt_zero : x.pairAt 0 = x.pairs := by rw [pairAt, Nat.zero_mul, Nat.add_zero]

theorem AckStart.ackParse_overruns (hs : AckStart s h x) {k : Nat} (hk : x.overruns s k) :
    ackParse s h = .error .badAck := by
  have hpairs := ackPairs_of_overruns (k := 0) (acc := 0) (Nat.zero_add _) rfl (Nat.zero_le k) hk
  rw [hs.ackParse_eq]
  obtain rfl := hs.wire
  rw [AckWire.pairAt_zero] at hpairs
  exact ackBlocks_of_pairs_error hs.firstFits hs.not_badFirst hpairs

theorem AckStart.ackParse_cut (hs : AckStart s h x) (hstay : ∀ k, ¬x.overruns s k) (hcut : s.len.toNat < x.next) :
    ackParse s h = .error .shortBuffer := by
  have hbegin : x.pairAt 0 ≤ s.len.toNat := AckWire.pairAt_zero.trans_le hs.firstFits
  rw [hs.ackParse_eq]
  by_cases hfit : x.pairAt x.count ≤ s.len.toNat
  · have hpairs := ackPairs_of_complete (k := 0) (acc := 0) (Nat.zero_add _) rfl hstay hfit
    obtain rfl := hs.wire
    rw [AckWire.pairAt_zero] at hpairs
    exact ackBlocks_of_stamps_error hs.firstFits hs.not_badFirst hpairs (ackTimestamps_cut hcut)
  · have hpairs := ackPairs_of_cut (k := 0) (acc := 0) (Nat.zero_add _) rfl hstay hbegin (Nat.lt_of_not_le hfit)
    obtain rfl := hs.wire
    rw [AckWire.pairAt_zero] at hpairs
    exact ackBlocks_of_pairs_error hs.firstFits hs.not_badFirst hpairs

theorem AckStart.pairs_fit (hs : AckStart s h x) (hfit : x.next ≤ s.len.toNat) : x.pairAt x.count ≤ s.len.toNat := by
  obtain rfl := hs.wire
  exact ((Nat.le_add_right _ 1).trans (Nat.le_add_right _ _)).trans hfit

/-- A frame below LEN in which no run overruns is parsed to its end; with N = 1 the list must be valid. -/
theorem AckStart.ackParse_complete (hs : AckStart s h x) (hstay : ∀ k, ¬x.overruns s k) (hfit : x.next ≤ s.len.toNat) :
    ackParse s h =
      if x.missing = false then .ok ⟨x.largest, x.first, uf16Dec x.delayCode, [], x.next⟩
      else if ackValid x.largest (x.head :: x.rangesFrom s 0 x.count) = false then .error .badAck
      else .ok ⟨x.largest, lastFirst x.head (x.rangesFrom s 0 x.count), uf16Dec x.delayCode,
        x.head :: x.rangesFrom s 0 x.count, x.next⟩ := by
  rw [hs.ackParse_eq]
  obtain rfl := hs.wire
  have hpairs := ackPairs_of_complete (k := 0) (acc := 0) (Nat.zero_add _) rfl hstay (hs.pairs_fit hfit)
  rw [AckWire.pairAt_zero] at hpairs
  exact ackBlocks_of_stamps_ok hs.firstFits hs.not_badFirst hpairs (ackTimestamps_complete hfit)

theorem AckStart.ackParse_invalid (hs : AckStart s h x) (hstay : ∀ k, ¬x.overruns s k) (hfit : x.next ≤ s.len.toNat)
    (hmissing : x.missing = true) (hinvalid : x.invalid s) : ackParse s h = .error .badAck := by
  have hvalid := mt (ackValid_head_iff (hs.pairs_fit hfit) hs.firstPos hs.firstLe hstay).1 (not_not.2 hinvalid)
  rw [hs.ackParse_complete hstay hfit, if_neg (by simp [hmissing]), if_pos (Bool.eq_false_iff.2 hvalid)]

/-- The answer of the parser for a frame with missing ranges. -/
def AckWire.frame (x : AckWire) (s : State) : AckFrame :=
  ⟨x.largest, lastFirst x.head (x.rangesFrom s 0 x.count), uf16Dec x.delayCode, x.head :: x.rangesFrom s 0 x.count,
    x.next⟩

theorem AckStart.ackParse_valid (hs : AckStart s h x) (hstay : ∀ k, ¬x.overruns s k) (hfit : x.next ≤ s.len.toNat)
    (hmissing : x.missing = true) (hvalid : ¬x.invalid s) : ackParse s h = .ok (x.frame s) := by
  have hlist := (ackValid_head_iff (hs.pairs_fit hfit) hs.firstPos hs.firstLe hstay).2 hvalid
  rw [hs.ackParse_complete hstay hfit, if_neg (by simp [hmissing]), if_neg (by simp [hlist])]
  rfl

/-! ## The command (R177) -/

/-- The state in which ACK_DEC ends when the parse answers `a`. -/
def ackLoaded (a : AckFrame) (s : State) : State :=
  { s with
    cmd := 0x0042, largest := BitVec.ofNat 48 a.largest, lowest := BitVec.ofNat 48 a.lowest
    delay := BitVec.ofNat 64 a.delay, nranges := BitVec.ofNat 16 a.ranges.length, cur := BitVec.ofNat 16 a.next
    rangeFirst := (storeRanges (withCmd 0x0042 s) 0 a.ranges).rangeFirst
    rangeLast := (storeRanges (withCmd 0x0042 s) 0 a.ranges).rangeLast }

theorem ackParse_withCmd (w : CommandWord) (s : State) (p : Nat) : ackParse (withCmd w s) p = ackParse s p :=
  ackParse_congr (s := s) (t := withCmd w s) rfl (fun _ => rfl) p

theorem exec_ackDec_of_error {e : FaultCode} (hmode : s.mode = .ready) (hp : ackParse s s.cur.toNat = .error e) :
    exec .ackDec s = .next (afterFault 0x0042 (faultNumber e).toNat s) :=
  exec_command_fault (i := .ackDec) e rfl hmode (by
    simp only [rule, ackDecode, ackParse_withCmd, withCmd_cur, hp])

theorem exec_ackDec_of_ok (hmode : s.mode = .ready) (hp : ackParse s s.cur.toNat = .ok a) :
    exec .ackDec s = .next (ackLoaded a s) := by
  refine exec_command_ok (i := .ackDec) rfl hmode ?_
  simp only [rule, ackDecode, ackParse_withCmd, withCmd_cur, hp]
  rw [storeRanges_eq]
  rfl

/-- The columns of RANGE are those that the ranges are stored to. -/
theorem ackLoaded_rangeAt (a : AckFrame) (s : State) (i : Nat) :
    (ackLoaded a s).rangeFirstAt i = (storeRanges (withCmd 0x0042 s) 0 a.ranges).rangeFirstAt i ∧
      (ackLoaded a s).rangeLastAt i = (storeRanges (withCmd 0x0042 s) 0 a.ranges).rangeLastAt i := by
  rw [storeRanges_eq]
  exact ⟨rfl, rfl⟩

theorem ackLoaded_inside {i : Nat} {r : AckRange} (hr : a.ranges[i]? = some r) :
    (ackLoaded a s).rangeFirstAt i = BitVec.ofNat 48 r.first ∧
      (ackLoaded a s).rangeLastAt i = BitVec.ofNat 48 r.last := by
  obtain ⟨hfirst, hlast⟩ := ackLoaded_rangeAt a s i
  have hstored := storeRanges_inside a.ranges (withCmd 0x0042 s) 0 i r hr
  rwa [Nat.zero_add, ← hfirst, ← hlast] at hstored

theorem ackLoaded_outside {i : Nat} (hi : a.ranges.length ≤ i) :
    (ackLoaded a s).rangeFirstAt i = s.rangeFirstAt i ∧ (ackLoaded a s).rangeLastAt i = s.rangeLastAt i := by
  obtain ⟨hfirst, hlast⟩ := ackLoaded_rangeAt a s i
  rw [hfirst, hlast]
  exact storeRanges_outside a.ranges (withCmd 0x0042 s) 0 i (.inr (by omega))

/-! ## The registers after the command (R180) -/

/-- LOWEST is the `first` of the last range, where there is one. -/
theorem ackLoaded_lowest {p : Nat} (hgood : a.Good s p) (hne : 0 < a.ranges.length) :
    (ackLoaded a s).lowest = (ackLoaded a s).rangeFirstAt (a.ranges.length - 1) := by
  have hlast := List.getElem?_eq_getElem (Nat.sub_one_lt_of_lt hne)
  rw [(ackLoaded_inside hlast).1, ← hgood.last _ hlast]
  rfl

/-- A 48-bit register holds a number below `2^48` as it is. -/
theorem toNat_ofNat48 {n : Nat} (h : n < 2 ^ 48) : (BitVec.ofNat 48 n).toNat = n := by
  rw [BitVec.toNat_ofNat, Nat.mod_eq_of_lt h]

/-- NRANGES counts the ranges parsed: there are at most 256 (R180). -/
theorem ackLoaded_nranges {p : Nat} (hgood : a.Good s p) :
    (ackLoaded a s).nranges.toNat = a.ranges.length := by
  have hcount := hgood.count
  rw [ackLoaded, BitVec.toNat_ofNat, Nat.mod_eq_of_lt (by omega)]

/-- The list in the registers is the list parsed: every bound fits in 48 bits. -/
theorem ackLoaded_ranges {p : Nat} (hgood : a.Good s p) (hlargest : a.largest < 2 ^ 48) :
    (ackLoaded a s).ranges = a.ranges := by
  refine List.ext_getElem (by rw [State.ranges_length, ackLoaded_nranges hgood]) fun i hi hi' => ?_
  obtain ⟨hfirst, hlast⟩ := ackLoaded_inside (s := s) (List.getElem?_eq_getElem hi')
  obtain ⟨-, hle, hle'⟩ := hgood.bounds _ (List.getElem_mem hi')
  rw [← Option.some_inj, ← List.getElem?_eq_getElem, State.ranges_getElem? (by rwa [State.ranges_length] at hi), hfirst,
    hlast, toNat_ofNat48 (by omega), toNat_ofNat48 (by omega)]

end

/-! ## The type byte's fields -/

/-- A byte whose top three bits are 010 or 011 is an ACK frame's, and its bit 5 is N. -/
theorem ackType_of_field {t : Byte} {n : Nat} (hn : n < 2) (h : field t 7 5 = 2 + n) :
    field t 7 6 = 1 ∧ t.toNat / 2 ^ 5 % 2 = n := by
  simp only [field] at h ⊢
  omega

/-- The parts of a frame without missing ranges: no count and no pairs (R175). -/
theorem ackWireAt_of_not_missing {s : State} {h law abw : Nat} (hn : (s.byte h).getLsbD 5 = false)
    (hlaw : law = codedWidth (s.byte h) 4 3) (habw : abw = codedWidth (s.byte h) 1 0) : ackWireAt s h =
      { missing := false, width := abw, largest := s.memRead (h + 1) law, delayCode := s.memRead (h + 1 + law) 2
        firstBlock := s.memRead (h + 3 + law) abw, count := 0, pairs := h + 3 + law + abw, stamps := h + 3 + law + abw
        next := h + 3 + law + abw + 1 + stampBytes (s.byte (h + 3 + law + abw)).toNat } := by
  subst hlaw habw
  simp only [ackWireAt, hn, Bool.false_eq_true, if_false, Nat.add_zero, Nat.zero_mul]

/-! ## The obligations -/

/-- Settles O41: each clause is where the parser stops on the frame up to there. -/
theorem ackDecodeFaults : Obligations.AckDecodeFaults := by
  refine ⟨decode_of_encode rfl, fun s t law x hmode ht hlaw hx => ?_⟩
  obtain rfl := ht
  obtain rfl := hlaw
  have fault (e : FaultCode) (h : ackParse s s.cur.toNat = .error e) := exec_ackDec_of_error hmode h
  refine ⟨fun hcut => fault .shortBuffer (ackParse_cut hcut), fun hfit =>
    ⟨fun htype => fault .badFrameType (ackParse_badType hfit htype), fun htype => ?_⟩⟩
  have htyped : AckTyped s s.cur.toNat := ⟨hfit, htype⟩
  refine ⟨fun hcut => fault .shortBuffer (ackParse_largest_cut htyped hcut), fun hfit =>
    ⟨fun hzero => fault .valueRange (ackParse_largest_zero htyped hfit hzero), fun hpos => ?_⟩⟩
  have hhead : AckHead s s.cur.toNat := ⟨htyped, hfit, hpos⟩
  refine ⟨fun hcut => fault .shortBuffer (ackParse_first_cut hhead hx hcut), fun hfit =>
    ⟨fun hbad => fault .badAck (ackParse_first_bad hhead hx hfit hbad), fun hpos hle => ?_⟩⟩
  have hstart : AckStart s s.cur.toNat x := ⟨hhead, hx, hfit, hpos, hle⟩
  exact ⟨fun ⟨k, hk⟩ => fault .badAck (hstart.ackParse_overruns hk), fun hstay =>
    ⟨fun hcut => fault .shortBuffer (hstart.ackParse_cut hstay hcut), fun hfit hmissing hinvalid =>
      fault .badAck (hstart.ackParse_invalid hstay hfit hmissing hinvalid)⟩⟩

/-- Settles O40: without missing ranges the count is 0, so no run overruns and the frame is parsed to its end. -/
theorem ackDecodeWithoutMissingRanges : Obligations.AckDecodeWithoutMissingRanges := by
  intro s t law abw L dc fb nts z hmode ht htype hlaw habw hL hdc hfb hnts hz hfit hpos hle
  subst ht hL hdc hfb hnts
  obtain ⟨htype, hbit⟩ := ackType_of_field (n := 0) (by decide) htype
  have hwire := ackWireAt_of_not_missing (getLsbD_eq_false hbit) hlaw habw
  rw [show s.cur.toNat + 4 + law + abw = s.cur.toNat + 3 + law + abw + 1 by omega] at hz
  subst hz
  have hstart := ackStart_of_complete hwire.symm htype hfit hpos hle
  have hparse := hstart.ackParse_complete (fun k ⟨hk, _⟩ => absurd hk (Nat.not_lt_zero k)) hfit
  exact exec_ackDec_of_ok hmode hparse

/-- Settles O42: the first half is the state `ackLoaded`; for the second the parser's answer is `AckWire.frame`. -/
theorem ackDecodeWritesWhatItParsed : Obligations.AckDecodeWritesWhatItParsed := by
  refine ⟨fun s a hmode hparse => ⟨_, exec_ackDec_of_ok hmode hparse, rfl, fun i r => ackLoaded_inside,
    fun i => ackLoaded_outside⟩, fun s x hmode hx htype hfit hpos hle hstay hvalid => ?_⟩
  obtain ⟨htype, hbit⟩ := ackType_of_field (n := 1) (by decide) htype
  have hmissing : x.missing = true := by
    rw [hx]
    exact getLsbD_eq_true hbit
  have hparse := (ackStart_of_complete hx htype hfit hpos hle).ackParse_valid hstay hfit hmissing hvalid
  have hlength : (x.frame s).ranges.length = 1 + x.runs s x.count := by
    rw [AckWire.frame, List.length_cons, AckWire.rangesFrom_length, Nat.add_comm]
  have hrange (k : Nat) (hk : k < x.count) (hrun : x.run s k ≠ 0) :
      (x.frame s).ranges[1 + x.runs s k]? = some (x.rangeOf s k) := by
    rw [Nat.add_comm, AckWire.frame, List.getElem?_cons_succ, AckWire.rangesFrom_getElem? hk hrun]
  obtain ⟨hfirst, hlast⟩ := ackLoaded_inside (s := s) (a := x.frame s) (i := 0) (r := x.head) rfl
  have hlowest := ackLoaded_lowest (ackParse_ok hparse).1 (Nat.succ_pos _)
  rw [hlength, Nat.add_sub_cancel_left] at hlowest
  refine ⟨_, exec_ackDec_of_ok hmode hparse, ?_, hfirst, hlast, fun k hk hrun => ackLoaded_inside (hrange k hk hrun),
    hlowest, fun i hi => ackLoaded_outside (hlength.trans_le hi)⟩
  rw [← hlength]
  rfl

/-- Settles O44: the parser's answer is good (`ackParse_ok`), and the registers hold it whole. -/
theorem ackDecodeDeliversValidRanges : Obligations.AckDecodeDeliversValidRanges := by
  intro s t _ hmode ht hready
  cases hparse : ackParse s s.cur.toNat with
  | error e =>
    rw [exec_ackDec_of_error hmode hparse] at ht
    cases ht
    cases hready
  | ok a =>
    rw [exec_ackDec_of_ok hmode hparse] at ht
    cases ht
    obtain ⟨hgood, hlargest⟩ := ackParse_ok hparse
    obtain ⟨hlow, hhigh⟩ := hgood.lowest
    obtain ⟨hadvance, hend⟩ := hgood.next
    have hL : (ackLoaded a s).largest.toNat = a.largest := toNat_ofNat48 hlargest
    have hlowest : (ackLoaded a s).lowest.toNat = a.lowest := toNat_ofNat48 (by omega)
    have hcur : (ackLoaded a s).cur.toNat = a.next := by
      have hlen := s.len.isLt
      rw [ackLoaded, BitVec.toNat_ofNat, Nat.mod_eq_of_lt (by omega)]
    rw [ackLoaded_ranges hgood hlargest, hL, ackLoaded_nranges hgood, hlowest, hcur]
    exact ⟨hgood.valid, hgood.count, hlow, hhigh, ackLoaded_lowest hgood, hadvance, hend⟩

end Sys2Proof.Machine
end

section
/-! Gap splitting and the entry cap (43_ack.md R179): the entries of one gap and run, and the ranges that
`ackEntries` keeps. -/

namespace Sys2Proof.Machine

/-! ## One gap and run -/

theorem gapEntries_length {gap : Nat} (run : Nat) (h : 1 ≤ gap) : (gapEntries gap run).length = gapCount gap := by
  rw [gapEntries, List.length_append, List.length_replicate, List.length_singleton, gapCount]
  omega

theorem gapEntries_gap_sum (gap run : Nat) : ((gapEntries gap run).map Prod.fst).sum = gap := by
  rw [gapEntries, List.map_append, List.sum_append, List.map_replicate, List.sum_replicate, gapCount]
  simp only [List.map_cons, List.map_nil, List.sum_singleton, smul_eq_mul]
  omega

/-- Settles O47: the last entry takes what the pieces of 255 leave of the gap. -/
theorem gapSplitting : Obligations.GapSplitting := by
  intro gap run hgap
  refine ⟨gapEntries_gap_sum gap run, gapEntries_length run hgap,
    ⟨gap - 255 * (gapCount gap - 1), ?_, ?_, rfl⟩, rfl, rfl⟩
  all_goals
    rw [gapCount]
    omega

/-! ## The entry cap -/

section

variable {above used m : Nat} {r : AckRange} {rs : List AckRange} {pairs : List (Nat × Nat)}

/-- The wire entries of the range `below` under the range `above` (R179). -/
def entriesBetween (above below : AckRange) : List (Nat × Nat) :=
  gapEntries (above.first - below.last - 1) (below.last - below.first + 1)

/-- The first range whose entries do not fit is dropped with all lower ones. -/
theorem ackEntries_drop (h : 255 < used + gapCount (above - r.last - 1)) : ackEntries above used (r :: rs) = (0, []) :=
  if_pos h

theorem ackEntries_keep (h : used + gapCount (above - r.last - 1) ≤ 255) : ackEntries above used (r :: rs) =
    ((ackEntries r.first (used + gapCount (above - r.last - 1)) rs).1 + 1,
      gapEntries (above - r.last - 1) (r.last - r.first + 1) ++
        (ackEntries r.first (used + gapCount (above - r.last - 1)) rs).2) :=
  if_neg (Nat.not_lt.2 h)

theorem rangesDescend_cons {q : AckRange} :
    rangesDescend (r :: q :: rs) = true ↔ q.last + 2 ≤ r.first ∧ rangesDescend (q :: rs) = true := by
  rw [rangesDescend, Bool.and_eq_true, decide_eq_true_eq]

theorem entriesBetween_length {q : AckRange} (h : q.last + 2 ≤ r.first) :
    (entriesBetween r q).length = gapCount (r.first - q.last - 1) := gapEntries_length _ (by omega)

/-- What `ackEntries` keeps below the range `r`, when `used` entries stand before. -/
structure KeepsHighest (r : AckRange) (rs : List AckRange) (used m : Nat) (pairs : List (Nat × Nat)) : Prop where
  count : m ≤ rs.length
  cap : used + pairs.length ≤ 255
  entries : pairs = ((((r :: rs).zip rs).take m).map fun x => entriesBetween x.1 x.2).flatten
  full : ∀ above next, (r :: rs)[m]? = some above → rs[m]? = some next →
    255 < used + pairs.length + (entriesBetween above next).length

theorem ackEntries_keepsHighest (hdescend : rangesDescend (r :: rs) = true) (hused : used ≤ 255)
    (h : ackEntries r.first used rs = (m, pairs)) : KeepsHighest r rs used m pairs := by
  induction rs generalizing r used m pairs with
  | nil =>
    cases h
    exact ⟨le_rfl, hused, rfl, fun _ _ _ hnext => by cases hnext⟩
  | cons q rs ih =>
    obtain ⟨hgap, htail⟩ := rangesDescend_cons.1 hdescend
    have hlength := entriesBetween_length hgap
    by_cases hfit : used + gapCount (r.first - q.last - 1) ≤ 255
    · rw [ackEntries_keep hfit, ← hlength] at h
      rw [← hlength] at hfit
      cases h
      obtain ⟨hcount, hcap, hentries, hfull⟩ := ih htail hfit rfl
      rw [Nat.add_assoc, ← List.length_append] at hcap
      refine ⟨Nat.succ_le_succ hcount, hcap, ?_, fun above next ha hn => ?_⟩
      · rw [List.zip_cons_cons, List.take_succ_cons, List.map_cons, List.flatten_cons, ← hentries, entriesBetween]
      · have hmore := hfull above next ha hn
        rwa [Nat.add_assoc used, ← List.length_append] at hmore
    · rw [ackEntries_drop (Nat.lt_of_not_le hfit)] at h
      cases h
      refine ⟨Nat.zero_le _, hused, rfl, fun above next ha hn => ?_⟩
      cases ha
      cases hn
      rw [hlength, List.length_nil]
      omega

end

/-- Settles O48: the case of `ackEntries_keepsHighest` with no entries before. -/
theorem entryCapKeepsHighestRanges : Obligations.EntryCapKeepsHighestRanges := by
  intro r rs m pairs hdescend h
  obtain ⟨hcount, hcap, hentries, hfull⟩ := ackEntries_keepsHighest hdescend (Nat.zero_le _) h
  rw [Nat.zero_add] at hcap hfull
  exact ⟨hcount, hcap, hentries, hfull⟩

end Sys2Proof.Machine
end

section
/-! ACK_ENC (43_ack.md R178): what the command emits for the registers, or the fault it takes, one lemma for each branch
of the operand checks. -/

namespace Sys2Proof.Machine

theorem toNat_eq_zero_iff {w : Nat} {v : BitVec w} : v.toNat = 0 ↔ v = 0 := by simp [← BitVec.toNat_inj]

section

variable {s : State} {r : AckRange} {rs : List AckRange} {a : AckPlan} {bytes : List Byte}

/-! ## The list in the registers -/

theorem State.ranges_eq_nil_iff : s.ranges = [] ↔ s.nranges = 0 := by
  rw [← List.length_eq_zero_iff, s.ranges_length]
  exact toNat_eq_zero_iff

/-- The last range's `first` stands at index NRANGES - 1. -/
theorem lastFirst_ranges (h : s.ranges = r :: rs) : lastFirst r rs = (s.rangeFirstAt (s.nranges.toNat - 1)).toNat := by
  have hlength : s.nranges.toNat = rs.length + 1 := by rw [← s.ranges_length, h, List.length_cons]
  obtain ⟨hlast, hfirst⟩ := lastFirst_getLast r rs
  have hentry := State.ranges_getElem? (s := s) (i := rs.length) (by omega)
  rw [h, hlast, Option.some_inj] at hentry
  rw [hlength, Nat.add_sub_cancel, ← hfirst, hentry]

theorem lastFirst_lt_one_iff (h : s.ranges = r :: rs) :
    lastFirst r rs < 1 ↔ s.rangeFirstAt (s.nranges.toNat - 1) = 0 := by
  rw [lastFirst_ranges h, Nat.lt_one_iff]
  exact toNat_eq_zero_iff

/-! ## The operand checks (R178) -/

theorem ackPlan_withCmd (w : CommandWord) (s : State) : ackPlan (withCmd w s) = ackPlan s := rfl

theorem ackPlan_largest_zero (h : s.largest = 0) : ackPlan s = .error .valueRange := by
  rw [ackPlan]
  exact if_pos (by rw [h]; decide)

theorem largest_not_lt_one (h : s.largest ≠ 0) : ¬s.largest.toNat < 1 := by
  rw [Nat.lt_one_iff]
  exact mt toNat_eq_zero_iff.1 h

theorem ackPlan_empty (hL : s.largest ≠ 0) (h : s.ranges = []) : ackPlan s =
    if s.lowest.toNat < 1 ∨ s.largest.toNat < s.lowest.toNat then .error .badAck
    else .ok ⟨s.largest.toNat - s.lowest.toNat + 1, 0, []⟩ := by
  simp only [ackPlan, if_neg (largest_not_lt_one hL), h]

theorem ackPlan_cons (hL : s.largest ≠ 0) (h : s.ranges = r :: rs) : ackPlan s =
    if ackValid s.largest.toNat (r :: rs) = false then .error .badAck
    else if lastFirst r rs < 1 then .error .badAck
    else .ok ⟨s.largest.toNat - r.first + 1, (ackEntries r.first 0 rs).1 + 1, (ackEntries r.first 0 rs).2⟩ := by
  simp only [ackPlan, if_neg (largest_not_lt_one hL), h]

/-! ## The command (R178) -/

theorem exec_ackEnc_of_error {e : FaultCode} (hmode : s.mode = .ready) (h : ackPlan s = .error e) :
    exec .ackEnc s = .next (afterFault 0x0043 (faultNumber e).toNat s) :=
  exec_command_fault (i := .ackEnc) e rfl hmode (by simp only [rule, ackEncode, ackPlan_withCmd, h])

/-- A frame that has been planned is stored at the cursor, unless that leaves the buffer. -/
theorem exec_ackEnc_of_ok (hmode : s.mode = .ready) (h : ackPlan s = .ok a)
    (hbytes : ackFrameBytes s.largest.toNat s.delay.toNat a = bytes) :
    (s.cfg.bufSize < s.cur.toNat + bytes.length → exec .ackEnc s = .next (afterFault 0x0043 3 s)) ∧
    (s.cur.toNat + bytes.length ≤ s.cfg.bufSize →
      StoresAtCursor .ackEnc 0x0043 s { s with aemit := BitVec.ofNat 16 a.emitted } bytes) := by
  have hrule : rule .ackEnc (withCmd 0x0043 s) =
      emit bytes (withCmd 0x0043 { s with aemit := BitVec.ofNat 16 a.emitted }) := by
    simp only [rule, ackEncode, ackPlan_withCmd, h, withCmd_largest, withCmd_delay, hbytes]
    rfl
  constructor
  · exact fun hfull => exec_command_fault .noSpace rfl hmode (hrule.trans (emit_full hfull))
  · exact fun hfits => storesAtCursor_of_emitted rfl hmode rfl rfl (fun _ => rfl) (hrule.trans (emit_fits hfits))

/-! ## The bytes of the frame (R175, R178) -/

/-- With no further range there is neither the has-missing-ranges bit nor a count. -/
theorem ackFrameBytes_empty (L delay fb : Nat) : ackFrameBytes L delay ⟨fb, 0, []⟩ =
    [BitVec.ofNat 8 (0x40 + pnCode (pnWidth L) * 8 + pnCode (pnWidth fb))] ++ leBytes (pnWidth L) L ++
      leBytes 2 (uf16Enc delay) ++ leBytes (pnWidth fb) fb ++ [0x00] := by
  simp [ackFrameBytes, pairBytes]

theorem ackFrameBytes_empty_length (L delay fb : Nat) :
    (ackFrameBytes L delay ⟨fb, 0, []⟩).length = 4 + pnWidth L + pnWidth fb := by
  simp only [ackFrameBytes_empty, List.length_append, List.length_singleton, leBytes_length]
  omega

theorem ackFrameBytes_ranges (L delay fb m : Nat) (pairs : List (Nat × Nat)) :
    ackFrameBytes L delay ⟨fb, m + 1, pairs⟩ =
      [BitVec.ofNat 8 (0x40 + (if m = 0 then 0 else 32) + pnCode (pnWidth L) * 8 +
          pnCode (pnWidth ((pairs.map Prod.snd).foldl max fb)))] ++
        leBytes (pnWidth L) L ++ leBytes 2 (uf16Enc delay) ++
        (if m = 0 then [] else [BitVec.ofNat 8 pairs.length]) ++
        leBytes (pnWidth ((pairs.map Prod.snd).foldl max fb)) fb ++
        (pairs.map fun q =>
          BitVec.ofNat 8 q.1 :: leBytes (pnWidth ((pairs.map Prod.snd).foldl max fb)) q.2).flatten ++ [0x00] := by
  rw [ackFrameBytes, ← pairBytes_eq_flatten]
  cases m <;> simp

end

/-! ## The obligations -/

/-- Settles O45: the faults are those of the operand checks, and an empty list plans a frame without pairs. -/
theorem ackEncodeOfEmptyListAndFaults : Obligations.AckEncodeOfEmptyListAndFaults := by
  refine ⟨decode_of_encode rfl, fun s hmode => ?_⟩
  refine ⟨fun hzero => ?_, fun hL hempty hlowest => ?_, fun hL hne hbad => ?_,
    fun fb law abw hempty hpos hle hfb hlaw habw => ?_⟩
  · exact exec_ackEnc_of_error hmode (ackPlan_largest_zero hzero)
  · refine exec_ackEnc_of_error (e := .badAck) hmode ?_
    have hout : s.lowest.toNat < 1 ∨ s.largest.toNat < s.lowest.toNat :=
      hlowest.imp_left fun h => by rw [h]; decide
    rw [ackPlan_empty hL (State.ranges_eq_nil_iff.2 hempty), if_pos hout]
  · refine exec_ackEnc_of_error (e := .badAck) hmode ?_
    obtain ⟨r, rs, hranges⟩ := List.exists_cons_of_ne_nil (mt State.ranges_eq_nil_iff.1 hne)
    rw [ackPlan_cons hL hranges]
    obtain hinvalid | hzero := hbad
    · rw [if_pos (hranges ▸ hinvalid)]
    · rw [if_pos ((lastFirst_lt_one_iff hranges).2 hzero), ite_self]
  · have hL : s.largest ≠ 0 := fun h => absurd (toNat_eq_zero_iff.2 h) (Nat.ne_of_gt (hpos.trans hle))
    have hplan : ackPlan s = .ok ⟨fb, 0, []⟩ := by
      rw [ackPlan_empty hL (State.ranges_eq_nil_iff.2 hempty), if_neg (by omega), hfb]
    subst hlaw habw
    rw [← ackFrameBytes_empty_length s.largest.toNat s.delay.toNat fb, ← ackFrameBytes_empty]
    exact exec_ackEnc_of_ok hmode hplan rfl

/-- Settles O46: a valid list plans the frame with the entries that `ackEntries` keeps. -/
theorem ackEncodeOfRangeList : Obligations.AckEncodeOfRangeList := by
  intro s r rs m law abw pairs bytes hmode hranges hvalid hfirst hL hentries hlaw habw hbytes
  obtain ⟨-, hlast, -, -⟩ := ackValid_cons_iff.1 hvalid
  have hplan : ackPlan s = .ok ⟨r.last - r.first + 1, m + 1, pairs⟩ := by
    rw [ackPlan_cons hL hranges, if_neg (by simp [hvalid]),
      if_neg (mt (lastFirst_lt_one_iff hranges).1 hfirst), hentries, hlast]
  subst hlaw habw hbytes
  exact exec_ackEnc_of_ok hmode hplan (ackFrameBytes_ranges ..)

end Sys2Proof.Machine
end

section
/-! The packet serializers and VER_CHOOSE (44_packet.md R207 to R211): the bytes each serializer builds from the
registers, the branches of its operand checks, and what the command stores. -/

namespace Sys2Proof.Machine

/-! ## Commands that end by emitting bytes -/

section

variable {i : Instr} {w : CommandWord} {s u : State} {bs : List Byte} {size : Nat}

/-- R62, R115: where all operands are good, the space check alone decides between the store and E_NO_SPACE. The state `u`
is `s` but for registers that take no part in the store. -/
theorem exec_emit (henc : encode i = .cw w) (hmode : s.mode = .ready) (hcur : u.cur = s.cur) (hlen : u.len = s.len)
    (hcfg : u.cfg = s.cfg) (hbyte : ∀ a, u.byte a = s.byte a) (hsize : bs.length = size)
    (hrule : rule i (withCmd w s) = emit bs (withCmd w u)) :
    (s.cfg.bufSize < s.cur.toNat + size → exec i s = .next (afterFault w 3 s)) ∧
    (s.cur.toNat + size ≤ s.cfg.bufSize → StoresAtCursor i w s u bs) := by
  rw [← hsize, ← hcur, ← hcfg]
  constructor
  · exact fun hfull => exec_command_fault .noSpace henc hmode (hrule.trans (emit_full hfull))
  · exact fun hfits => storesAtCursor_of_emitted henc hmode hcur hlen hbyte (hrule.trans (emit_fits hfits))

end

/-! ## Regular headers (R210) -/

theorem toNat_lt_one_iff {w : Nat} {v : BitVec w} : v.toNat < 1 ↔ v = 0 := Nat.lt_one_iff.trans toNat_eq_zero_iff

/-- A field of one bit is that bit. -/
theorem field_bit {w : Nat} (v : BitVec w) (i : Nat) : field v i i = if v.getLsbD i then 1 else 0 := by
  rw [field, Nat.sub_self, Nat.zero_add, pow_one, ← Nat.toNat_testBit, BitVec.getLsbD]
  cases v.toNat.testBit i <;> rfl

/-- The flags byte that the registers compose: the code of the packet number's width, HASNONCE and HASVER. -/
def regularFlags (s : State) : Byte :=
  BitVec.ofNat 8 (pnCode (pnWidth s.pnum.toNat) * 16 + 8 + (if s.pinfo.getLsbD 1 then 4 else 0) +
    (if s.pinfo.getLsbD 0 then 1 else 0))

/-- The bytes of the Regular header in the registers. -/
def regularBytes (s : State) : List Byte :=
  [regularFlags s] ++ leBytes 8 s.cid.toNat ++ (if s.pinfo.getLsbD 0 then leBytes 4 s.ver.toNat else []) ++
    (if s.pinfo.getLsbD 1 then s.nonceBytes else []) ++ leBytes (pnWidth s.pnum.toNat) s.pnum.toNat

theorem State.nonceBytes_length (s : State) : s.nonceBytes.length = 32 := by
  simp only [nonceBytes, List.length_append, leBytes_length]

theorem regularBytes_length (s : State) : (regularBytes s).length =
    9 + (if s.pinfo.getLsbD 0 then 4 else 0) + (if s.pinfo.getLsbD 1 then 32 else 0) + pnWidth s.pnum.toNat := by
  simp only [regularBytes, List.length_append, List.length_singleton, leBytes_length, apply_ite List.length,
    s.nonceBytes_length, List.length_nil]

/-- The two operand checks of R210 in their order, then the header. -/
theorem serializeRegular_eq (sb : Role) (s : State) : serializeRegular sb s =
    if s.pinfo.getLsbD 0 = true ∧ sb = .server then .error .badOperand
    else if s.pnum = 0 then .error .valueRange
    else emit (regularBytes s) (s.built (regularFlags s) 0 (pnWidth s.pnum.toNat)) := by
  simp only [serializeRegular, regularBytes, regularFlags, field_bit, toNat_lt_one_iff, ite_mul, one_mul, zero_mul,
    ite_eq_left_iff, Nat.zero_ne_one, imp_false, not_not]

/-- The word of a command with a role operand under that role (30_encoding.md R81). -/
theorem encode_pktSerReg {sb : Role} {w : CommandWord} (h : sb = .client ∧ w = 0x0051 ∨ sb = .server ∧ w = 0x0151) :
    encode (.pktSerReg sb) = .cw w := by
  obtain ⟨rfl, rfl⟩ | ⟨rfl, rfl⟩ := h <;> rfl

/-- Settles O54: the checks and the header of `serializeRegular_eq`, on the state in which CMD is written. -/
theorem Packet.serializeRegular : Obligations.SerializeRegular := by
  refine ⟨decode_of_encode rfl, decode_of_encode rfl, fun s sb word hv hn w size f hmode hword hhv hhn hw hsize hf => ?_⟩
  subst hhv hhn hw hsize hf
  have henc := encode_pktSerReg hword
  have hrule : rule (.pktSerReg sb) (withCmd word s) = _ := serializeRegular_eq sb (withCmd word s)
  refine ⟨fun hbad => ?_, fun hgood => ⟨fun hzero => ?_, fun hpos => ?_⟩⟩
  · exact exec_command_fault .badOperand henc hmode (hrule.trans (if_pos hbad))
  · exact exec_command_fault .valueRange henc hmode (hrule.trans ((if_neg hgood).trans (if_pos hzero)))
  · exact exec_emit (u := s.built (regularFlags s) 0 (pnWidth s.pnum.toNat)) henc hmode rfl rfl rfl (fun _ => rfl)
      (regularBytes_length s) (hrule.trans ((if_neg hgood).trans (if_neg hpos)))

/-! ## Reset packets (R207) -/

/-- An integer stored in `n` bytes is its residue modulo `256 ^ n`. -/
theorem leBytes_mod (n v : Nat) : leBytes n (v % 256 ^ n) = leBytes n v := by
  induction n generalizing v with
  | zero => rfl
  | succ n ih =>
    have hlow : BitVec.ofNat 8 (v % 256 ^ (n + 1)) = BitVec.ofNat 8 v := by
      refine BitVec.eq_of_toNat_eq ?_
      rw [BitVec.toNat_ofNat, BitVec.toNat_ofNat, Nat.mod_mod_of_dvd v (Dvd.intro_left (256 ^ n) (pow_succ 256 n).symm)]
    rw [leBytes, hlow, pow_succ', Nat.mod_mul_right_div_self, ih, leBytes]

/-- R205: the first four bytes of ADDR are the low half word of ADDR[0]. -/
theorem addrBytes_ipv4 (s : State) : s.addrBytes 4 = leBytes 4 (s.addr0.toNat % 2 ^ 32) :=
  (leBytes_mod 4 s.addr0.toNat).symm

theorem addrBytes_ipv6 (s : State) : s.addrBytes 16 = leBytes 8 s.addr0.toNat ++ leBytes 8 s.addr1.toNat :=
  List.take_of_length_le (by rw [List.length_append, leBytes_length, leBytes_length])

/-- A number of one byte, stored in four. -/
theorem leBytes_four {e : Nat} (h : e < 256) : leBytes 4 e = [BitVec.ofNat 8 e, 0, 0, 0] := by
  rw [leBytes, Nat.div_eq_of_lt h]
  rfl

/-- The Reset packet of the registers as R204 and R205 lay it out: `ha` whether it carries a socket address, `e` the last
end offset of its map and `addr` the address. -/
def resetWire (s : State) (ha : Bool) (e : Nat) (addr : List Byte) : List Byte :=
  [0x0A] ++ leBytes 8 s.cid.toNat ++ [0x50, 0x52, 0x53, 0x54, if ha then 3 else 2, 0, 0, 0] ++
    [0x52, 0x4E, 0x4F, 0x4E, 32, 0, 0, 0] ++ [0x52, 0x53, 0x45, 0x51, 40, 0, 0, 0] ++
    (if ha then [0x43, 0x41, 0x44, 0x52, BitVec.ofNat 8 e, 0, 0, 0] else []) ++
    s.nonceBytes ++ leBytes 8 s.pnum.toNat ++
    (if ha then leBytes 2 s.afam.toNat ++ addr ++ leBytes 2 s.aport.toNat else [])

theorem resetWire_length (s : State) (ha : Bool) (e : Nat) (addr : List Byte) :
    (resetWire s ha e addr).length = 73 + if ha then 12 + addr.length else 0 := by
  cases ha
  · rw [resetWire]
    simp only [List.length_append, leBytes_length, s.nonceBytes_length, Bool.false_eq_true, if_false]
    rfl
  · rw [resetWire]
    simp only [List.length_append, leBytes_length, s.nonceBytes_length, if_true]
    simp only [List.length_cons, List.length_nil]
    omega

/-- Without a socket address the map has two entries and ends at 40. -/
theorem resetPacketBytes_plain (s : State) : resetPacketBytes s false = resetWire s false 40 [] := by
  simp only [resetPacketBytes, resetWire, List.append_assoc]
  rfl

/-- With one it has a third entry, which ends behind the family, the address and the port. -/
theorem resetPacketBytes_addr {s : State} {e : Nat} (h : e = 44 + addressLength s.afam) (hlt : e < 256) :
    resetPacketBytes s true = resetWire s true e (s.addrBytes (addressLength s.afam)) := by
  simp only [resetPacketBytes, resetWire, if_true, ← h, leBytes_four hlt, List.append_assoc]
  rfl

/-- The two operand checks of R207 in their order, then the packet. -/
theorem serializeReset_eq (s : State) : serializeReset s =
    if s.pnum = 0 then .error .valueRange
    else if s.pinfo.getLsbD 2 = true ∧ s.afam ≠ 0x0002 ∧ s.afam ≠ 0x000A then .error .badOperand
    else emit (resetPacketBytes s (s.pinfo.getLsbD 2)) (s.built 0x0A 1 8) := by
  simp only [serializeReset, toNat_lt_one_iff]

/-- The three forms of R207, by HASADDR and AFAM, with their sizes and last end offsets. -/
theorem resetPacketBytes_of_form {s : State} {ha : Bool} {size e : Nat} {addr : List Byte}
    (h : ha = false ∧ size = 73 ∧ e = 40 ∧ addr = [] ∨
      ha = true ∧ s.afam = 0x0002 ∧ size = 89 ∧ e = 48 ∧ addr = leBytes 4 (s.addr0.toNat % 2 ^ 32) ∨
      ha = true ∧ s.afam = 0x000A ∧ size = 101 ∧ e = 60 ∧ addr = leBytes 8 s.addr0.toNat ++ leBytes 8 s.addr1.toNat) :
    resetPacketBytes s ha = resetWire s ha e addr ∧ (resetWire s ha e addr).length = size ∧
      ¬(ha = true ∧ s.afam ≠ 0x0002 ∧ s.afam ≠ 0x000A) := by
  rw [resetWire_length]
  obtain ⟨rfl, rfl, rfl, rfl⟩ | ⟨rfl, hfam, rfl, rfl, rfl⟩ | ⟨rfl, hfam, rfl, rfl, rfl⟩ := h
  · exact ⟨resetPacketBytes_plain s, rfl, fun h => absurd h.1 Bool.false_ne_true⟩
  · have halen : addressLength s.afam = 4 := by rw [hfam]; rfl
    have hbytes := resetPacketBytes_addr (s := s) (e := 48) (by rw [halen]) (by decide)
    rw [halen, addrBytes_ipv4] at hbytes
    exact ⟨hbytes, by rw [leBytes_length]; rfl, fun h => h.2.1 hfam⟩
  · have halen : addressLength s.afam = 16 := by rw [hfam]; rfl
    have hbytes := resetPacketBytes_addr (s := s) (e := 60) (by rw [halen]) (by decide)
    rw [halen, addrBytes_ipv6] at hbytes
    exact ⟨hbytes, by rw [List.length_append, leBytes_length, leBytes_length]; rfl, fun h => h.2.2 hfam⟩

/-- Settles O55: the checks of `serializeReset_eq`, and the packet of each form as R204 lays it out. -/
theorem Packet.serializeReset : Obligations.SerializeReset := by
  refine ⟨decode_of_encode rfl, fun s ha size e addr hmode hha => ?_⟩
  have hrule : rule .pktSerRst (withCmd 0x0052 s) = _ := serializeReset_eq (withCmd 0x0052 s)
  rw [withCmd_pinfo, ← hha] at hrule
  refine ⟨fun hzero => ?_, fun hpos haddr hv4 hv6 => ?_, fun hpos hform => ?_⟩
  · exact exec_command_fault .valueRange rfl hmode (hrule.trans (if_pos hzero))
  · exact exec_command_fault .badOperand rfl hmode ((hrule.trans (if_neg hpos)).trans (if_pos ⟨haddr, hv4, hv6⟩))
  · obtain ⟨hbytes, hsize, hgood⟩ := resetPacketBytes_of_form hform
    have hemit := (hrule.trans (if_neg hpos)).trans (if_neg hgood)
    rw [show resetPacketBytes (withCmd 0x0052 s) ha = _ from hbytes] at hemit
    exact exec_emit (u := s.built 0x0A 1 8) rfl hmode rfl rfl rfl (fun _ => rfl) hsize hemit

/-! ## Negotiation packets (R208) -/

theorem negotiationBytes_length (s : State) : (negotiationBytes s).length = 9 + 4 * s.supportedTags.length := by
  simp only [negotiationBytes, List.length_append, List.length_singleton, leBytes_length, List.length_flatMap,
    List.map_const', List.sum_replicate, smul_eq_mul, Nat.mul_comm 4]

/-- Settles O56: there is no operand to check, and the tags are the supported ones. -/
theorem Packet.serializeNegotiation : Obligations.SerializeNegotiation := by
  refine ⟨decode_of_encode rfl, fun s tags hmode htags => ?_⟩
  obtain rfl : tags = s.supportedTags := htags
  rw [← List.flatMap_def]
  exact exec_emit (i := .pktSerNeg) rfl hmode rfl rfl rfl (fun _ => rfl) (negotiationBytes_length s) rfl

/-! ## The version choice (R209, R211) -/

section

variable {s : State} {offered : List Nat}

theorem choose_none (h : ∀ t ∈ offered, s.supported t = false) : choose s offered = (false, 0) := by
  induction offered with
  | nil => rfl
  | cons t ts ih =>
    rw [choose, h t List.mem_cons_self, if_neg Bool.false_ne_true, ih fun u hu => h u (List.mem_cons_of_mem t hu)]

/-- R211: the first supported tag is chosen, wherever it stands. -/
theorem choose_first {i t : Nat} (ht : offered[i]? = some t) (hsup : s.supported t = true)
    (hbefore : ∀ j, j < i → ∀ u, offered[j]? = some u → s.supported u = false) : choose s offered = (true, t) := by
  induction offered generalizing i with
  | nil => cases ht
  | cons u us ih =>
    cases i with
    | zero =>
      cases ht
      rw [choose, if_pos hsup]
    | succ i =>
      rw [choose, hbefore 0 (Nat.succ_pos i) u rfl, if_neg Bool.false_ne_true]
      exact ih ht fun j hj => hbefore (j + 1) (Nat.succ_lt_succ hj)

/-- R209: the offered tags by index. -/
theorem State.offered_getElem? {i : Nat} (h : i < s.nver.toNat) :
    s.offered[i]? = some (s.memRead (s.negoff.toNat + 4 * i) 4) := by
  rw [offered, List.getElem?_map, List.getElem?_range h, Option.map_some]

theorem choose_withCmd (w : CommandWord) (s : State) (offered : List Nat) :
    choose (withCmd w s) offered = choose s offered := by
  induction offered with
  | nil => rfl
  | cons t ts ih =>
    rw [choose, choose, ih]
    rfl

/-- R33: a tag is supported where an enabled slot holds it. -/
theorem State.supported_iff (v : Nat) : s.supported v = true ↔
    ∃ j, j < s.cfg.nSupv ∧ s.supven.getLsbD j = true ∧ (s.supv.getD j 0).toNat = v := by
  simp only [supported, supvAt, List.any_eq_true, List.mem_range, Bool.and_eq_true, beq_iff_eq]

/-- A list below LEN is searched; the answer goes to VERSEL and COND. -/
theorem exec_verChoose_of_fits (hmode : s.mode = .ready) (hfit : s.negoff.toNat + 4 * s.nver.toNat ≤ s.len.toNat)
    {found : Bool} {t : Nat} (h : choose s s.offered = (found, t)) : exec .verChoose s =
      .next { s with cmd := 0x0054, versel := BitVec.ofNat 32 t, cond := condOf found } := by
  refine exec_command_ok (i := .verChoose) rfl hmode ((if_neg (Nat.not_lt.2 hfit)).trans ?_)
  rw [choose_withCmd, show (withCmd 0x0054 s).offered = s.offered from rfl, h]
  rfl

end

/-- Settles O57: the model's search of the list, by index. -/
theorem versionChoice : Obligations.VersionChoice := by
  refine ⟨decode_of_encode rfl, fun s tag hmode htag => ⟨fun hcut => ?_, fun hfit =>
    ⟨fun i hi hsup hbefore => ?_, fun hnone => ?_⟩, fun v => State.supported_iff v⟩⟩
  · exact exec_command_fault .shortBuffer rfl hmode (if_pos hcut)
  · have hchoice := choose_first (State.offered_getElem? hi) (htag i ▸ hsup) fun j hj u hu => by
      rw [State.offered_getElem? (hj.trans hi), ← htag, Option.some_inj] at hu
      exact hu ▸ hbefore j hj
    rw [exec_verChoose_of_fits hmode hfit hchoice, htag]
    rfl
  · have hchoice : choose s s.offered = (false, 0) := choose_none fun t ht => by
      obtain ⟨i, hi, rfl⟩ := List.mem_map.1 ht
      rw [← htag]
      exact hnone i (List.mem_range.1 hi)
    exact exec_verChoose_of_fits hmode hfit hchoice

end Sys2Proof.Machine
end
section
/-! The public flags rows and PKT_PARSE (44_packet.md R201, R206; 30_encoding.md R88, R89): a row run by itself is the
parse of its variant, and PKT_PARSE that meets the byte does the same with CMD its word. -/

namespace Sys2Proof.Machine

/-- The variant's parse from the address behind the connection id (R206). -/
def variantParse : FlagsByte → State → Nat → Except FaultCode Parsed
  | .reset _ _ _ => parseReset
  | .negotiation _ _ => parseNegotiation
  | .regular v n pp => parseRegular v n pp

section

variable {s t : State} {b : FlagsByte} {e : FaultCode} {p : Parsed} {sb : Role} {w : CommandWord}

/-! ## The rule of a row -/

theorem flagsRule_eq_parseVariant (b : FlagsByte) (s : State) :
    flagsRule b s = parseVariant (publicFlagsByte b) (variantParse b) s := by cases b <;> rfl

/-- R201: every variant needs the connection id. -/
theorem flagsRule_cut (hcut : s.len.toNat < s.cur.toNat + 9) : flagsRule b s = .error .shortBuffer := by
  rw [flagsRule_eq_parseVariant]
  exact if_pos hcut

theorem flagsRule_of_parse (hfit : s.cur.toNat + 9 ≤ s.len.toNat) : flagsRule b s =
    (variantParse b s (s.cur.toNat + 9)).map
      fun p => loadPacket (publicFlagsByte b) (s.memRead (s.cur.toNat + 1) 8) p s := by
  rw [flagsRule_eq_parseVariant]
  refine (if_neg (Nat.not_lt.2 hfit)).trans ?_
  cases variantParse b s (s.cur.toNat + 9) <;> rfl

theorem flagsRule_of_error (hfit : s.cur.toNat + 9 ≤ s.len.toNat)
    (hp : variantParse b s (s.cur.toNat + 9) = .error e) : flagsRule b s = .error e := by
  rw [flagsRule_of_parse hfit, hp]
  rfl

/-! ## The word in CMD -/

theorem withCmd_memBytes (w : CommandWord) (s : State) (a n : Nat) : (withCmd w s).memBytes a n = s.memBytes a n :=
  State.memBytes_congr fun _ _ => rfl

theorem withCmd_supported (w : CommandWord) (s : State) (tag : Nat) : (withCmd w s).supported tag = s.supported tag :=
  rfl

/-- R206: the parse reads BUF, LEN and the version set alone. -/
theorem variantParse_withCmd (w : CommandWord) (b : FlagsByte) (s : State) (q : Nat) :
    variantParse b (withCmd w s) q = variantParse b s q := by
  cases b with
  | reset =>
    simp only [variantParse, parseReset, parseResetValues, State.short, withCmd_len, withCmd_memBytes, withCmd_memRead]
  | negotiation => rfl
  | regular =>
    simp only [variantParse, parseRegular, parseNonce, parseNumber, State.short, withCmd_len, withCmd_memRead,
      withCmd_supported]

/-- The word in CMD is not seen by a row, which leaves it there. -/
theorem flagsRule_withCmd (w : CommandWord) (b : FlagsByte) (s : State) :
    flagsRule b (withCmd w s) = (flagsRule b s).map (withCmd w) := by
  obtain hcut | hfit := Nat.lt_or_ge s.len.toNat (s.cur.toNat + 9)
  · rw [flagsRule_cut hcut, flagsRule_cut (s := withCmd w s) hcut]
    rfl
  · rw [flagsRule_of_parse hfit, flagsRule_of_parse (s := withCmd w s) hfit, variantParse_withCmd, withCmd_memRead,
      withCmd_cur]
    cases variantParse b s (s.cur.toNat + 9) <;> rfl

/-- A row run by itself (log entry 5). -/
theorem exec_instrOfFlags (hmode : s.mode = .ready) : exec (instrOfFlags b) s = settle (flagsRule b) s := by
  rw [exec_ready _ s hmode]
  cases b <;> rfl

/-! ## PKT_PARSE -/

/-- The word of PKT_PARSE under a role (30_encoding.md R81, R82). -/
theorem encode_pktParse (h : sb = .client ∧ w = 0x0050 ∨ sb = .server ∧ w = 0x0150) :
    encode (.pktParse sb) = .cw w := by
  obtain ⟨rfl, rfl⟩ | ⟨rfl, rfl⟩ := h <;> rfl

theorem packetParseRule_cut (hcut : s.len.toNat ≤ s.cur.toNat) : packetParseRule sb s = .error .shortBuffer :=
  if_pos (Nat.lt_succ_of_le hcut)

theorem packetParseRule_badFlags {x : Illegal} (hlen : s.cur.toNat < s.len.toNat)
    (h : decodeFlagsByte sb (s.byte s.cur.toNat) = .error x) : packetParseRule sb s = .error .badFlags := by
  rw [packetParseRule, if_neg (by omega), h]

theorem packetParseRule_of_decode (hlen : s.cur.toNat < s.len.toNat)
    (h : decodeFlagsByte sb (s.byte s.cur.toNat) = .ok b) : packetParseRule sb s = flagsRule b s := by
  rw [packetParseRule, if_neg (by omega), h]

/-- PKT_PARSE that meets a byte runs its row on the state in which CMD is written. -/
theorem rule_pktParse_of_decode (w : CommandWord) (hlen : s.cur.toNat < s.len.toNat)
    (hdec : decodeFlagsByte sb (s.byte s.cur.toNat) = .ok b) :
    rule (.pktParse sb) (withCmd w s) = (flagsRule b s).map (withCmd w) :=
  (packetParseRule_of_decode (s := withCmd w s) hlen hdec).trans (flagsRule_withCmd w b s)

/-- A packet that is parsed is loaded, whether its row is run by itself or by PKT_PARSE. -/
theorem exec_of_parsed (hmode : s.mode = .ready) (hfit : s.cur.toNat + 9 ≤ s.len.toNat)
    (hp : variantParse b s (s.cur.toNat + 9) = .ok p)
    (ht : loadPacket (publicFlagsByte b) (s.memRead (s.cur.toNat + 1) 8) p s = t) :
    exec (instrOfFlags b) s = .next t ∧
    ∀ sb w, (sb = .client ∧ w = 0x0050 ∨ sb = .server ∧ w = 0x0150) →
      decodeFlagsByte sb (s.byte s.cur.toNat) = .ok b → exec (.pktParse sb) s = .next { t with cmd := w } := by
  have hrule : flagsRule b s = .ok t := by rw [flagsRule_of_parse hfit, hp, ← ht]; rfl
  refine ⟨(exec_instrOfFlags hmode).trans (settle_of_ok hrule), fun sb w hword hdec => ?_⟩
  refine exec_command_ok (encode_pktParse hword) hmode ((rule_pktParse_of_decode w (by omega) hdec).trans ?_)
  rw [hrule]
  rfl

/-! ## Faults of the rows -/

/-- The fault of a row that PKT_PARSE has met is the command's. -/
theorem exec_pktParse_of_error (hmode : s.mode = .ready)
    (hword : sb = .client ∧ w = 0x0050 ∨ sb = .server ∧ w = 0x0150) (hlen : s.cur.toNat < s.len.toNat)
    (hdec : decodeFlagsByte sb (s.byte s.cur.toNat) = .ok b) (hrule : flagsRule b s = .error e) :
    exec (.pktParse sb) s = .next (afterFault w (faultNumber e).toNat s) :=
  exec_command_fault e (encode_pktParse hword) hmode
    ((rule_pktParse_of_decode w hlen hdec).trans (by rw [hrule]; rfl))

theorem exec_pktParse_cut (hmode : s.mode = .ready)
    (hword : sb = .client ∧ w = 0x0050 ∨ sb = .server ∧ w = 0x0150) (hcut : s.len.toNat ≤ s.cur.toNat) :
    exec (.pktParse sb) s = .next (afterFault w 2 s) :=
  exec_command_fault .shortBuffer (encode_pktParse hword) hmode (packetParseRule_cut (s := withCmd w s) hcut)

theorem instrOfFlags_injective {b b' : FlagsByte} (h : instrOfFlags b = instrOfFlags b') : b = b' := by
  cases b <;> cases b' <;> cases h <;> rfl

theorem decodeFlagsByte_of_decode {f : Byte} (h : decode (.pf sb f) = .ok (instrOfFlags b)) :
    decodeFlagsByte sb f = .ok b := by
  cases hdec : decodeFlagsByte sb f with
  | error x => rw [decode_pf_error hdec] at h; cases h
  | ok b' =>
    rw [decode_pf_ok hdec] at h
    rw [instrOfFlags_injective (Except.ok.inj h)]

/-- A fault of the rule is the fault of both ways to run the row. With no byte at the cursor PKT_PARSE takes
E_SHORT_BUFFER, as the row does. -/
theorem parseFaults_of_rule (f : Byte) (hmode : s.mode = .ready) (hrule : flagsRule b s = .error e)
    (hempty : s.len.toNat ≤ s.cur.toNat → e = .shortBuffer) :
    ParseFaults s (instrOfFlags b) f (faultNumber e).toNat := by
  refine ⟨?_, fun sb w hword hf hdec => ?_⟩
  · rw [exec_instrOfFlags hmode, settle_of_error hrule, takeFault_eq_afterFault]
  · obtain hlen | hcut := Nat.lt_or_ge s.cur.toNat s.len.toNat
    · exact exec_pktParse_of_error hmode hword hlen (hf ▸ decodeFlagsByte_of_decode hdec) hrule
    · rw [hempty hcut]
      exact exec_pktParse_cut hmode hword hcut

theorem parseFaults_of_cut (f : Byte) (hmode : s.mode = .ready) (hcut : s.len.toNat < s.cur.toNat + 9) :
    ParseFaults s (instrOfFlags b) f 2 :=
  parseFaults_of_rule f hmode (flagsRule_cut hcut) fun _ => rfl

theorem parseFaults_of_error (f : Byte) (hmode : s.mode = .ready) (hfit : s.cur.toNat + 9 ≤ s.len.toNat)
    (hp : variantParse b s (s.cur.toNat + 9) = .error e) : ParseFaults s (instrOfFlags b) f (faultNumber e).toNat :=
  parseFaults_of_rule f hmode (flagsRule_of_error hfit hp) (by omega)

end

/-! ## The byte under a role (R88) -/

theorem decodeFlagsByte_regular_client (pp : BitVec 2) (n v : Bool) :
    decodeFlagsByte .client (flagsPattern pp n false v) = .ok (.regular v n pp) := by
  rw [decodeFlagsByte_flagsPattern, show (Role.client == Role.server) = false from rfl, Bool.and_false]
  rfl

/-- A client's byte with bit 0 set and bit 1 clear is a Regular one with a version tag. -/
theorem decodeFlagsByte_version_client {f : Byte} (h : f &&& 0xCB = 0x09) :
    decodeFlagsByte .client f = .ok (.regular true (f.getLsbD 2) (f.extractLsb' 4 2)) := by
  obtain ⟨hv, hr, hid, htop⟩ := (versionMask_iff f).1 h
  rw [decodeFlagsByte_of_wellFormed .client ((wellFormedMask_iff f).2 ⟨hid, htop⟩), flagsVariant, hv, hr]
  rfl

theorem decodeFlagsByte_regular_server (pp : BitVec 2) (n : Bool) :
    decodeFlagsByte .server (flagsPattern pp n false false) = .ok (.regular false n pp) :=
  decodeFlagsByte_flagsPattern ..

theorem decodeFlagsByte_negotiation (pp : BitVec 2) (n : Bool) :
    decodeFlagsByte .server (flagsPattern pp n false true) = .ok (.negotiation n pp) :=
  decodeFlagsByte_flagsPattern ..

theorem decodeFlagsByte_reset (sb : Role) (pp : BitVec 2) (n v : Bool) :
    decodeFlagsByte sb (flagsPattern pp n true v) = .ok (.reset v n pp) :=
  decodeFlagsByte_flagsPattern ..

end Sys2Proof.Machine
end

section
/-! Regular headers and Negotiation packets (44_packet.md R202, R203, R206): where their parse stops, and what it answers
for one that lies below LEN. -/

namespace Sys2Proof.Machine

section

variable {s : State} {v n : Bool} {pp : BitVec 2} {w p q : Nat} {packet : Parsed}

/-! ## The packet number -/

theorem parseNumber_cut (hcut : s.len.toNat < p + w) : parseNumber s w p packet = .error .shortBuffer := if_pos hcut

theorem parseNumber_zero (hfit : p + w ≤ s.len.toNat) (hzero : s.memRead p w = 0) :
    parseNumber s w p packet = .error .valueRange := (if_neg (Nat.not_lt.2 hfit)).trans (if_pos hzero)

theorem parseNumber_read (hfit : p + w ≤ s.len.toNat) (hpos : s.memRead p w ≠ 0) : parseNumber s w p packet =
    .ok { packet with pnum := s.memRead p w, pnlen := w, next := p + w } :=
  (if_neg (Nat.not_lt.2 hfit)).trans (if_neg hpos)

/-! ## The nonce -/

/-- What is parsed once the nonce at `p`, if the header has one, is read. -/
def nonceRead (s : State) (n : Bool) (p : Nat) (packet : Parsed) : Parsed :=
  if n then
    { packet with
      pinfo := packet.pinfo + 2
      nonce0 := s.memRead p 8, nonce1 := s.memRead (p + 8) 8
      nonce2 := s.memRead (p + 16) 8, nonce3 := s.memRead (p + 24) 8 }
  else packet

theorem parseNonce_fits (hfit : p + (if n then 32 else 0) ≤ s.len.toNat) : parseNonce s n w p packet =
    parseNumber s w (p + if n then 32 else 0) (nonceRead s n p packet) := by
  cases n
  · rfl
  · exact (if_neg Bool.false_ne_true.symm).trans (if_neg (Nat.not_lt.2 hfit))

/-- A header cut off in its nonce or in its packet number. -/
theorem parseNonce_cut (hcut : s.len.toNat < p + (if n then 32 else 0) + w) :
    parseNonce s n w p packet = .error .shortBuffer := by
  obtain hshort | hfit := Nat.lt_or_ge s.len.toNat (p + if n then 32 else 0)
  · cases n
    · exact parseNumber_cut hcut
    · exact (if_neg Bool.false_ne_true.symm).trans (if_pos hshort)
  · rw [parseNonce_fits hfit, parseNumber_cut hcut]

/-! ## The version tag -/

/-- What is parsed once the version tag at `q`, if the header has one, is read. -/
def versionRead (s : State) (v : Bool) (q : Nat) : Parsed :=
  { pkind := 0, pinfo := if v then 1 else 0, ver := if v then s.memRead q 4 else 0, next := q }

theorem parseRegular_version : parseRegular true n pp s q =
    if s.short q 4 then .error .shortBuffer
    else if s.supported (s.memRead q 4) = false then .error .badVersion
    else parseNonce s n (pnOfCode pp.toNat) (q + 4) (versionRead s true q) := rfl

theorem parseRegular_cut (hfit : q ≤ s.len.toNat) (hcut : s.len.toNat < q + if v then 4 else 0) :
    parseRegular v n pp s q = .error .shortBuffer := by
  cases v
  · exact absurd hcut (Nat.not_lt.2 hfit)
  · exact parseRegular_version.trans (if_pos hcut)

theorem parseRegular_badVersion (hfit : q + 4 ≤ s.len.toNat) (hver : s.supported (s.memRead q 4) = false) :
    parseRegular true n pp s q = .error .badVersion := by
  rw [parseRegular_version, if_neg (Nat.not_lt.2 hfit), if_pos hver]

theorem parseRegular_supported (hfit : q + (if v then 4 else 0) ≤ s.len.toNat)
    (hver : v = true → s.supported (s.memRead q 4) = true) : parseRegular v n pp s q =
      parseNonce s n (pnOfCode pp.toNat) (q + if v then 4 else 0) (versionRead s v q) := by
  cases v
  · rfl
  · exact parseRegular_version.trans
      ((if_neg (Nat.not_lt.2 hfit)).trans (if_neg (Bool.not_eq_false _ ▸ hver rfl)))

end

/-! ## The obligations -/

/-- Settles O50: with all fields below LEN the parse answers the fields read, and the packet is loaded. -/
theorem regularHeaderParse : Obligations.RegularHeaderParse := by
  intro s t v n pp f w ver nonce pnAt hmode hf hw hver hnonce hpnAt hfit hsup hpos ht
  subst hf hw hver hnonce hpnAt
  have hparse := parseRegular_supported (n := n) (pp := pp) (q := s.cur.toNat + 9) (by omega) hsup
  rw [parseNonce_fits (by omega), parseNumber_read hfit hpos] at hparse
  obtain ⟨hrow, hcommand⟩ := exec_of_parsed (b := .regular v n pp) (t := t) hmode (by omega) hparse (by
    rw [ht]
    cases v <;> cases n <;> rfl)
  refine ⟨hrow, fun hbyte => hcommand .client _ (.inl ⟨rfl, rfl⟩) ?_, fun hbyte hv =>
    hcommand .server _ (.inr ⟨rfl, rfl⟩) ?_⟩
  · rw [hbyte, decodeFlagsByte_regular_client]
  · rw [hbyte, hv, decodeFlagsByte_regular_server]

/-- Settles O51: the tags fill what LEN leaves, or the last one is cut off. -/
theorem negotiationParse : Obligations.NegotiationParse := by
  intro s t n pp f q hmode hf hq hfit ht
  subst hf hq
  refine ⟨fun hwhole => ?_, fun hcut => ?_⟩
  · obtain ⟨hrow, hcommand⟩ := exec_of_parsed (b := .negotiation n pp) (t := t) hmode hfit
      (if_neg (not_not.2 hwhole)) (by rw [ht, loadPacket, BitVec.ofNat_toNat, BitVec.setWidth_eq]; rfl)
    exact ⟨hrow, fun hbyte => hcommand .server _ (.inr ⟨rfl, rfl⟩) (hbyte ▸ decodeFlagsByte_negotiation pp n)⟩
  · obtain ⟨hrow, hcommand⟩ := parseFaults_of_error (b := .negotiation n pp) (e := .shortBuffer)
      (flagsPattern pp n false true) hmode hfit (if_pos hcut)
    exact ⟨hrow, fun hbyte => hcommand .server _ (.inr ⟨rfl, rfl⟩) hbyte
      (decode_pf_ok (decodeFlagsByte_negotiation pp n))⟩

end Sys2Proof.Machine
end
section
/-! Reset packets (44_packet.md R204 to R206): the bytes of the map as keys and end offsets, where the parse stops, and
what it answers with and without a socket address. -/

namespace Sys2Proof.Machine

/-! ## Keys and end offsets in BUF -/

section

variable {s : State} {a n v : Nat} {bs key : List Byte}

theorem leBytes_memRead (s : State) (a n : Nat) : leBytes n (s.memRead a n) = s.memBytes a n := by
  induction n generalizing a with
  | zero => rfl
  | succ n ih =>
    have hbyte := (s.byte a).isLt
    have hlow : BitVec.ofNat 8 ((s.byte a).toNat + 256 * s.memRead (a + 1) n) = s.byte a := by
      refine BitVec.eq_of_toNat_eq ?_
      rw [BitVec.toNat_ofNat]
      omega
    have hrest : ((s.byte a).toNat + 256 * s.memRead (a + 1) n) / 256 = s.memRead (a + 1) n := by omega
    rw [State.memRead, leBytes, hlow, hrest, ih, State.memBytes]

theorem bytesAt_iff_memBytes : BytesAt s a bs ↔ s.memBytes a bs.length = bs := by
  refine ⟨holds_memBytes, fun h k hk => ?_⟩
  rw [← State.memBytes_getElem? s a bs.length k hk, h]

theorem bytesAt_leBytes_iff (hv : v < 256 ^ n) : BytesAt s a (leBytes n v) ↔ s.memRead a n = v := by
  refine ⟨fun h => holds_memRead h hv, fun h => ?_⟩
  rw [bytesAt_iff_memBytes, leBytes_length, ← leBytes_memRead, h]

/-- An index entry of the map: a key of four bytes and an end offset (R204). -/
theorem bytesAt_entry_iff (hkey : key.length = 4) (hv : v < 256 ^ 4) :
    BytesAt s a (key ++ leBytes 4 v) ↔ s.memBytes a 4 = key ∧ s.memRead (a + 4) 4 = v := by
  rw [← bytesAt_leBytes_iff hv, ← hkey, ← bytesAt_iff_memBytes]
  exact holds_append

/-- The first two index entries, RNON and RSEQ, with their end offsets. -/
def resetKeys : List Byte :=
  [0x52, 0x4E, 0x4F, 0x4E, 0x20, 0x00, 0x00, 0x00, 0x52, 0x53, 0x45, 0x51, 0x28, 0x00, 0x00, 0x00]

/-- The third index entry, CADR, with the end offset `e`. -/
def addressEntry (e : Nat) : List Byte := [0x43, 0x41, 0x44, 0x52, BitVec.ofNat 8 e, 0x00, 0x00, 0x00]

theorem tagAt_iff : BytesAt s a tagPRST ↔ s.memBytes a 4 = tagPRST := bytesAt_iff_memBytes

theorem resetKeysAt_iff : BytesAt s (a + 8) resetKeys ↔
    (s.memBytes (a + 8) 4 = tagRNON ∧ s.memRead (a + 12) 4 = 32) ∧
      s.memBytes (a + 16) 4 = tagRSEQ ∧ s.memRead (a + 20) 4 = 40 := by
  have hnonce := bytesAt_entry_iff (s := s) (a := a + 8) (key := tagRNON) (v := 32) rfl (by decide)
  have hnumber := bytesAt_entry_iff (s := s) (a := a + 16) (key := tagRSEQ) (v := 40) rfl (by decide)
  rw [← hnonce, ← hnumber]
  exact holds_append (xs := tagRNON ++ leBytes 4 32) (ys := tagRSEQ ++ leBytes 4 40)

theorem addressEntryAt_iff (hv : v < 256) : BytesAt s (a + 24) (addressEntry v) ↔
    s.memBytes (a + 24) 4 = tagCADR ∧ s.memRead (a + 28) 4 = v := by
  have hentry := bytesAt_entry_iff (s := s) (a := a + 24) (key := tagCADR) rfl (show v < 256 ^ 4 by omega)
  rw [leBytes_four hv] at hentry
  exact hentry

end

section

variable {s : State} {q a e num : Nat}

/-! ## The head of the map -/

theorem parseReset_cut (hcut : s.len.toNat < q + 8) : parseReset s q = .error .shortBuffer := if_pos hcut

/-- What follows a good head of the map, once the index lies below LEN. -/
def resetIndexParse (s : State) (q num : Nat) : Except FaultCode Parsed :=
  if s.memBytes (q + 8) 4 ≠ tagRNON ∨ s.memRead (q + 12) 4 ≠ 32 then .error .badReset
  else if s.memBytes (q + 16) 4 ≠ tagRSEQ ∨ s.memRead (q + 20) 4 ≠ 40 then .error .badReset
  else if num = 2 then parseResetValues s (q + 8 + 8 * num) 40 false
  else if s.memBytes (q + 24) 4 ≠ tagCADR ∨ (s.memRead (q + 28) 4 ≠ 48 ∧ s.memRead (q + 28) 4 ≠ 60) then
    .error .badReset
  else parseResetValues s (q + 8 + 8 * num) (s.memRead (q + 28) 4) true

theorem parseReset_head (hfit : q + 8 ≤ s.len.toNat) (hnum : s.memRead (q + 4) 2 = num) : parseReset s q =
    if s.memBytes q 4 ≠ tagPRST then .error .badReset
    else if num ≠ 2 ∧ num ≠ 3 then .error .badReset
    else if s.short (q + 8) (8 * num) then .error .shortBuffer
    else resetIndexParse s q num := by
  subst hnum
  exact if_neg (Nat.not_lt.2 hfit)

theorem parseReset_badHead (hfit : q + 8 ≤ s.len.toNat) (hnum : s.memRead (q + 4) 2 = num)
    (hbad : ¬BytesAt s q tagPRST ∨ num ≠ 2 ∧ num ≠ 3) : parseReset s q = .error .badReset := by
  rw [tagAt_iff] at hbad
  rw [parseReset_head hfit hnum, ← ite_or]
  exact if_pos hbad

theorem parseReset_goodHead (hfit : q + 8 ≤ s.len.toNat) (hnum : s.memRead (q + 4) 2 = num)
    (htag : BytesAt s q tagPRST) (hcount : num = 2 ∨ num = 3) : parseReset s q =
      if s.short (q + 8) (8 * num) then .error .shortBuffer else resetIndexParse s q num := by
  rw [parseReset_head hfit hnum, if_neg (not_not.2 (tagAt_iff.1 htag)), if_neg (by omega)]

/-! ## The index -/

theorem resetIndexParse_badKeys (h : ¬BytesAt s (q + 8) resetKeys) : resetIndexParse s q num = .error .badReset := by
  rw [resetKeysAt_iff, not_and_or, not_and_or, not_and_or] at h
  rw [resetIndexParse, ← ite_or]
  exact if_pos h

theorem resetIndexParse_keys (h : BytesAt s (q + 8) resetKeys) : resetIndexParse s q num =
    if num = 2 then parseResetValues s (q + 8 + 8 * num) 40 false
    else if s.memBytes (q + 24) 4 ≠ tagCADR ∨ (s.memRead (q + 28) 4 ≠ 48 ∧ s.memRead (q + 28) 4 ≠ 60) then
      .error .badReset
    else parseResetValues s (q + 8 + 8 * num) (s.memRead (q + 28) 4) true := by
  obtain ⟨⟨hnonce, hnonceEnd⟩, hnumber, hnumberEnd⟩ := resetKeysAt_iff.1 h
  rw [resetIndexParse, if_neg (by simp only [hnonce, hnonceEnd]; decide),
    if_neg (by simp only [hnumber, hnumberEnd]; decide)]

/-- A third entry must be CADR's, with one of the two end offsets. Where the first two are wrong too, the fault is the
same. -/
theorem resetIndexParse_badAddress (hnum : num = 3) (hv4 : ¬BytesAt s (q + 24) (addressEntry 48))
    (hv6 : ¬BytesAt s (q + 24) (addressEntry 60)) : resetIndexParse s q num = .error .badReset := by
  by_cases hkeys : BytesAt s (q + 8) resetKeys
  · rw [addressEntryAt_iff (by decide)] at hv4 hv6
    rw [resetIndexParse_keys hkeys, if_neg (by omega), if_pos (by tauto)]
  · exact resetIndexParse_badKeys hkeys

/-- A good index leads to the values: up to the end offset 40, or to 48 or 60 with a socket address. -/
theorem resetIndexParse_values (hkeys : BytesAt s (q + 8) resetKeys)
    (he : num = 2 ∧ e = 40 ∨ num = 3 ∧ (e = 48 ∨ e = 60) ∧ BytesAt s (q + 24) (addressEntry e)) :
    resetIndexParse s q num = parseResetValues s (q + 8 + 8 * num) e (e ≠ 40) := by
  rw [resetIndexParse_keys hkeys]
  obtain ⟨hnum, rfl⟩ | ⟨hnum, hend, hentry⟩ := he
  · rw [if_pos hnum]
    rfl
  · obtain ⟨hkey, hread⟩ := (addressEntryAt_iff (by omega)).1 hentry
    rw [hread, if_neg (by omega), if_neg (not_or.2 ⟨not_not.2 hkey, by omega⟩), decide_eq_true (by omega)]

/-! ## The values -/

theorem parseResetValues_cut {ha : Bool} (hcut : s.len.toNat < a + e) :
    parseResetValues s a e ha = .error .shortBuffer := if_pos hcut

theorem parseResetValues_badNumber {ha : Bool} (hfit : a + e ≤ s.len.toNat)
    (hbad : s.memRead (a + 32) 8 < 1 ∨ 0xFFFFFFFFFFFF < s.memRead (a + 32) 8) :
    parseResetValues s a e ha = .error .valueRange := (if_neg (Nat.not_lt.2 hfit)).trans (if_pos hbad)

/-- What the values of a Reset packet from `a` to the end offset `e` say; a packet that ends at 40 has no address. -/
def resetRead (s : State) (a e : Nat) : Parsed :=
  { pkind := 1, pinfo := if e = 40 then 0 else 4, pnum := s.memRead (a + 32) 8, pnlen := 8, next := a + e
    nonce0 := s.memRead a 8, nonce1 := s.memRead (a + 8) 8
    nonce2 := s.memRead (a + 16) 8, nonce3 := s.memRead (a + 24) 8
    afam := if e = 40 then 0 else s.memRead (a + 40) 2
    aport := if e = 40 then 0 else s.memRead (a + 42 + (e - 44)) 2
    addr0 := if e = 40 then 0 else s.memRead (a + 42) (min (e - 44) 8)
    addr1 := if e = 40 then 0 else s.memRead (a + 50) (e - 44 - 8) }

/-- The address is read by its length, once its family fits that. -/
theorem parseResetValues_number (hfit : a + e ≤ s.len.toNat) (hlow : 1 ≤ s.memRead (a + 32) 8)
    (hhigh : s.memRead (a + 32) 8 ≤ 0xFFFFFFFFFFFF) : parseResetValues s a e (e ≠ 40) =
      if e = 48 ∧ s.memRead (a + 40) 2 ≠ 0x0002 ∨ e = 60 ∧ s.memRead (a + 40) 2 ≠ 0x000A then .error .badReset
      else .ok (resetRead s a e) := by
  have hgood : ¬(s.memRead (a + 32) 8 < 1 ∨ Config.pnMax < s.memRead (a + 32) 8) := by
    rw [not_or]
    exact ⟨Nat.not_lt.2 hlow, Nat.not_lt.2 hhigh⟩
  simp only [parseResetValues, if_neg (Nat.not_lt.2 hfit), if_neg hgood]
  by_cases he : e = 40
  · subst he
    rfl
  · simp only [resetRead, he, ne_eq, not_false_iff, decide_true, Bool.true_eq_false, if_false]

end

/-! ## The obligations -/

/-- Settles O52: the map leads to the values, which are read as far as the packet's form has them. -/
theorem resetParse : Obligations.ResetParse := by
  intro s t v n pp f q a e fam hmode hf hq htag hform hkeys haddr hfit hlow hhigh ht
  subst hf hq
  obtain ⟨num, hnum, ha, hindex, hfamily⟩ : ∃ num, s.memRead (s.cur.toNat + 9 + 4) 2 = num ∧
      a = s.cur.toNat + 9 + 8 + 8 * num ∧
      (num = 2 ∧ e = 40 ∨ num = 3 ∧ (e = 48 ∨ e = 60) ∧ BytesAt s (s.cur.toNat + 9 + 24) (addressEntry e)) ∧
      (e = 40 ∧ fam = 0 ∨ (e = 48 ∧ fam = 0x0002 ∨ e = 60 ∧ fam = 0x000A) ∧ s.memRead (a + 40) 2 = fam) := by
    obtain ⟨hnum, ha, he, hfam⟩ | ⟨hnum, ha, he, hfam⟩ | ⟨hnum, ha, he, hfam⟩ := hform
    · exact ⟨2, hnum, ha, .inl ⟨rfl, he⟩, .inl ⟨he, hfam⟩⟩
    · obtain ⟨hentry, hread⟩ := haddr (by omega)
      exact ⟨3, hnum, ha, .inr ⟨rfl, .inl he, hentry⟩, .inr ⟨.inl ⟨he, hfam⟩, hread⟩⟩
    · obtain ⟨hentry, hread⟩ := haddr (by omega)
      exact ⟨3, hnum, ha, .inr ⟨rfl, .inr he, hentry⟩, .inr ⟨.inr ⟨he, hfam⟩, hread⟩⟩
  have hparse := parseReset_goodHead (by omega) hnum htag (hindex.imp And.left And.left)
  rw [if_neg (Nat.not_lt.2 (by omega)), resetIndexParse_values hkeys hindex, ← ha,
    parseResetValues_number hfit hlow hhigh, if_neg (by omega)] at hparse
  obtain ⟨hrow, hcommand⟩ := exec_of_parsed (b := .reset v n pp) (t := t) hmode (by omega) hparse (by
    rw [ht]
    obtain ⟨rfl, rfl⟩ | ⟨⟨rfl, -⟩ | ⟨rfl, -⟩, hread⟩ := hfamily
    · rfl
    · rw [← hread]
      rfl
    · rw [← hread]
      rfl)
  have hdecode (sb : Role) (hbyte : s.byte s.cur.toNat = flagsPattern pp n true v) :
      decodeFlagsByte sb (s.byte s.cur.toNat) = .ok (.reset v n pp) := by rw [hbyte, decodeFlagsByte_reset]
  exact ⟨hrow, fun hbyte => ⟨hcommand .client _ (.inl ⟨rfl, rfl⟩) (hdecode _ hbyte),
    hcommand .server _ (.inr ⟨rfl, rfl⟩) (hdecode _ hbyte)⟩⟩

/-! ## The faults of PKT_PARSE -/

/-- R206: the faults that all variants share, and the unsupported version tag as PKT_PARSE of a client meets it. -/
theorem exec_pktParse_faults {s : State} {sb : Role} {w : CommandWord} (hmode : s.mode = .ready)
    (hword : sb = .client ∧ w = 0x0050 ∨ sb = .server ∧ w = 0x0150) :
    (s.len.toNat ≤ s.cur.toNat → exec (.pktParse sb) s = .next (afterFault w 2 s)) ∧
    (s.cur.toNat < s.len.toNat →
      (s.byte s.cur.toNat &&& 0xC8 ≠ 0x08 → exec (.pktParse sb) s = .next (afterFault w 8 s)) ∧
      (s.byte s.cur.toNat &&& 0xC8 = 0x08 → s.len.toNat < s.cur.toNat + 9 →
        exec (.pktParse sb) s = .next (afterFault w 2 s)) ∧
      (s.byte s.cur.toNat &&& 0xCB = 0x09 → sb = .client → s.cur.toNat + 13 ≤ s.len.toNat →
        s.supported (s.memRead (s.cur.toNat + 9) 4) = false → exec (.pktParse sb) s = .next (afterFault w 9 s))) := by
  refine ⟨exec_pktParse_cut hmode hword, fun hlen => ⟨fun hbad => ?_, fun hgood hcut => ?_,
    fun hbyte hclient hfit hver => ?_⟩⟩
  · obtain ⟨x, hx⟩ := decodeFlagsByte_of_not_wellFormed sb hbad
    exact exec_command_fault .badFlags (encode_pktParse hword) hmode
      (packetParseRule_badFlags (s := withCmd w s) hlen hx)
  · exact exec_pktParse_of_error hmode hword hlen (decodeFlagsByte_of_wellFormed sb hgood) (flagsRule_cut hcut)
  · have hdec := decodeFlagsByte_version_client hbyte
    rw [← hclient] at hdec
    exact exec_pktParse_of_error hmode hword hlen hdec
      (flagsRule_of_error (by omega) (parseRegular_badVersion (by omega) hver))

/-- R206: the faults of a Regular header in their order. -/
theorem parseFaults_regular {s : State} (hmode : s.mode = .ready) (v n : Bool) (pp : BitVec 2) (f : Byte)
    {w ver nonce pnAt : Nat} (hw : w = pnOfCode pp.toNat) (hver : ver = s.cur.toNat + 9)
    (hnonce : nonce = ver + (if v then 4 else 0)) (hpnAt : pnAt = nonce + (if n then 32 else 0)) :
    (s.len.toNat < nonce → ParseFaults s (.pfRegular v n pp) f 2) ∧
    (nonce ≤ s.len.toNat → v = true → s.supported (s.memRead ver 4) = false → ParseFaults s (.pfRegular v n pp) f 9) ∧
    (nonce ≤ s.len.toNat → (v = true → s.supported (s.memRead ver 4) = true) →
      (s.len.toNat < pnAt + w → ParseFaults s (.pfRegular v n pp) f 2) ∧
      (pnAt + w ≤ s.len.toNat → s.memRead pnAt w = 0 → ParseFaults s (.pfRegular v n pp) f 5)) := by
  subst hw hver hnonce hpnAt
  have fault (e : FaultCode) (hfit : s.cur.toNat + 9 ≤ s.len.toNat)
      (h : parseRegular v n pp s (s.cur.toNat + 9) = .error e) :=
    parseFaults_of_error (b := .regular v n pp) f hmode hfit h
  refine ⟨fun hcut => ?_, fun hfit hv hver => ?_, fun hfit hver => ?_⟩
  · obtain hid | hid := Nat.lt_or_ge s.len.toNat (s.cur.toNat + 9)
    · exact parseFaults_of_cut (b := .regular v n pp) f hmode hid
    · exact fault .shortBuffer hid (parseRegular_cut hid hcut)
  · subst hv
    exact fault .badVersion (Nat.le_of_add_right_le hfit) (parseRegular_badVersion hfit hver)
  · have hparse := parseRegular_supported (n := n) (pp := pp) hfit hver
    refine ⟨fun hcut => ?_, fun hall hzero => ?_⟩
    · exact fault .shortBuffer (Nat.le_of_add_right_le hfit) (hparse.trans (parseNonce_cut hcut))
    · rw [parseNonce_fits (Nat.le_of_add_right_le hall)] at hparse
      exact fault .valueRange (Nat.le_of_add_right_le hfit) (hparse.trans (parseNumber_zero hall hzero))

/-- Settles O53: every clause is where the parse of its variant stops. -/
theorem packetParseFaults : Obligations.PacketParseFaults := by
  refine ⟨decode_of_encode rfl, decode_of_encode rfl, fun s sb w hmode hword => exec_pktParse_faults hmode hword,
    fun s v n pp F w ver nonce pnAt hmode hF hw hver hnonce hpnAt => ?_, fun s n pp hmode hcut =>
    parseFaults_of_cut (b := .negotiation n pp) _ hmode hcut, fun s v n pp F q num a hmode hF hq hnum ha => ?_⟩
  · subst hF
    exact parseFaults_regular hmode v n pp _ hw hver hnonce hpnAt
  · subst hF hq ha
    have fault (e : FaultCode) (hfit : s.cur.toNat + 9 ≤ s.len.toNat) (h : parseReset s (s.cur.toNat + 9) = .error e) :=
      parseFaults_of_error (b := .reset v n pp) (flagsPattern pp n true v) hmode hfit h
    refine ⟨fun hcut => ?_, fun hfit hbad => ?_, fun hfit htag hcount => ?_⟩
    · obtain hid | hid := Nat.lt_or_ge s.len.toNat (s.cur.toNat + 9)
      · exact parseFaults_of_cut (b := .reset v n pp) _ hmode hid
      · exact fault .shortBuffer hid (parseReset_cut hcut)
    · exact fault .badReset (by omega) (parseReset_badHead hfit hnum.symm hbad)
    · have hid : s.cur.toNat + 9 ≤ s.len.toNat := by omega
      have hparse := parseReset_goodHead hfit hnum.symm htag hcount
      refine ⟨fun hcut => fault .shortBuffer hid (hparse.trans (if_pos hcut)), fun hindex => ?_⟩
      replace hparse := hparse.trans (if_neg (Nat.not_lt.2 hindex))
      refine ⟨fun hkeys => ?_, fun h3 hv4 hv6 => ?_, fun e hkeys he => ?_⟩
      · exact fault .badReset hid (hparse.trans (resetIndexParse_badKeys hkeys))
      · exact fault .badReset hid (hparse.trans (resetIndexParse_badAddress h3 hv4 hv6))
      · rw [resetIndexParse_values hkeys he] at hparse
        refine ⟨fun hcut => ?_, fun hall hbad => ?_, fun hall hlow hhigh hbad => ?_⟩
        · exact fault .shortBuffer hid (hparse.trans (parseResetValues_cut hcut))
        · exact fault .valueRange hid (hparse.trans (parseResetValues_badNumber hall hbad))
        · rw [parseResetValues_number hall hlow hhigh] at hparse
          exact fault .badReset hid (hparse.trans (if_pos hbad))

end Sys2Proof.Machine
end

section
/-! The block never stops, and FAULTED mode drops commands (60_exceptions.md R230, R235; 70_reset_and_hazards.md R261;
40_common.md R111). -/

namespace Sys2Proof.Machine

/-! ## Every host action completes -/

/-- In READY mode a rule is settled, either way; in FAULTED mode FAULT_ACK returns and the others are dropped. -/
theorem exec_completes (i : Instr) (s : State) : Completes (exec i s) := by
  cases hmode : s.mode with
  | ready => rw [exec_ready i s hmode]; exact settle_completes ..
  | faulted =>
    by_cases hi : i = .faultAck
    · subst hi; exact ⟨_, exec_faultAck_faulted hmode⟩
    · exact ⟨s, exec_faulted i s hmode hi⟩

theorem illegalCommand_completes (w : CommandWord) (s : State) : Completes (illegalCommand w s) := by
  cases hmode : s.mode with
  | ready => exact ⟨_, command_ready hmode⟩
  | faulted => exact ⟨s, command_faulted hmode⟩

theorem issue_completes (v : PortWord) (s : State) : Completes (issue v s) := by
  cases hd : decodeCommand (v.setWidth 16) with
  | ok i => rw [issue_of_decode hd]; exact exec_completes i s
  | error e => rw [issue_of_illegal hd]; exact illegalCommand_completes _ s

theorem act_completes (a : HostAction) (s : State) : Completes (act a s) := by
  cases a with
  | regWrite idx v =>
    by_cases hidx : idx = 0x00
    · rw [hidx, act_command]; exact issue_completes v _
    · exact ⟨_, act_regWrite v s hidx⟩
  | regRead idx => exact ⟨_, rfl⟩
  | bufRead a => exact ⟨_, rfl⟩
  | bufWrite a b => exact ⟨_, rfl⟩
  | reset => exact ⟨_, rfl⟩

theorem step_completes (s : State) : Completes (step s) := by
  cases hpending : s.pending with
  | nil => exact ⟨s, step_idle hpending⟩
  | cons a rest => rw [step_act hpending]; exact act_completes a _

/-- Settles O16: a fault is a next state too, so every instruction completes, and with it every host action. -/
theorem nothingStopsTheBlock : Obligations.NothingStopsTheBlock := ⟨step_completes, exec_completes⟩

/-! ## FAULTED mode -/

/-- The only row of the opcode map that builds FAULT_ACK, under either role, is that of the word 0x0001 (R82). -/
theorem wordsOfRow_faultAck :
    ∀ r ∈ commandTable, r.build .client = .faultAck ∨ r.build .server = .faultAck → wordsOfRow r = [0x0001] := by decide

theorem word_eq_of_decode_faultAck {w : CommandWord} (h : decodeCommand w = .ok .faultAck) : w = 0x0001 := by
  obtain ⟨r, hr, hmatch, hbuild⟩ := decodeCommand_ok h
  have hrole : r.build .client = .faultAck ∨ r.build .server = .faultAck := by
    cases hsb : roleOfWord w with
    | client => exact .inl (hsb ▸ hbuild.symm)
    | server => exact .inr (hsb ▸ hbuild.symm)
  have hmem := (row_matches_iff hr w).1 hmatch
  rw [wordsOfRow_faultAck r hr hrole] at hmem
  exact List.mem_singleton.1 hmem

/-- R235 at the issue of a word: it is dropped whether it decodes or not. -/
theorem issue_faulted {v : PortWord} {s : State} (hmode : s.mode = .faulted)
    (hword : v.setWidth 16 ≠ (0x0001 : CommandWord)) : issue v s = .next s := by
  cases hd : decodeCommand (v.setWidth 16) with
  | ok i =>
    have hi : i ≠ .faultAck := by
      rintro rfl
      exact hword (word_eq_of_decode_faultAck hd)
    rw [issue_of_decode hd, exec_faulted i s hmode hi]
  | error e =>
    rw [issue_of_illegal hd]
    exact command_faulted hmode

/-- Settles O18: the step performs the write, which issues the word, and the word is dropped. -/
theorem faultedModeDropsCommands : Obligations.FaultedModeDropsCommands := by
  refine ⟨fun s v rest hmode hpending hword => ?_, exec_faulted⟩
  calc step s = act (.regWrite 0x00 v) { s with pending := rest } := step_act hpending
    _ = issue v (acted rest s) := act_command v _
    _ = .next (acted rest s) := issue_faulted hmode hword

end Sys2Proof.Machine
end

section
/-! Decoding drops no bit (30_encoding.md R80 to R89): a word is the pattern of the row it matches under its role, a
type byte and a flags byte are composed of the fields that the decoder reads from them. -/

namespace Sys2Proof.Machine

/-! ## Command words -/

/-- R81, R82: the instruction that a row builds for a word it matches is encoded as that word. -/
theorem encode_build : ∀ r ∈ commandTable, ∀ w ∈ wordsOfRow r, encode (r.build (roleOfWord w)) = .cw w := by
  have hrows : commandTable.map (fun r => (wordsOfRow r).map fun w => encode (r.build (roleOfWord w))) =
      commandTable.map (fun r => (wordsOfRow r).map Encoding.cw) := rfl
  exact fun r hr => List.map_inj_left.1 (List.map_inj_left.1 hrows r hr)

theorem encode_of_decodeCommand {w : CommandWord} {i : Instr} (h : decodeCommand w = .ok i) : encode i = .cw w := by
  obtain ⟨r, hr, hmatch, rfl⟩ := decodeCommand_ok h
  exact encode_build r hr w ((row_matches_iff hr w).1 hmatch)

/-! ## Frame type bytes -/

theorem congestionByte_of_bits {t : Byte} (h5 : t.getLsbD 5 = true) (h6 : t.getLsbD 6 = false)
    (h7 : t.getLsbD 7 = false) : 0b001#3 ++ t.extractLsb' 0 5 = t :=
  BitVec.eq_of_getLsbD_eq fun i hi => by
    rw [getLsbD_congestionByte, BitVec.getLsbD_extractLsb', Nat.zero_add]
    grind

theorem ackByte_of_bits {t : Byte} (h6 : t.getLsbD 6 = true) (h7 : t.getLsbD 7 = false) :
    0b01#2 ++ bit (t.getLsbD 5) ++ t.extractLsb' 3 2 ++ bit (t.getLsbD 2) ++ t.extractLsb' 0 2 = t :=
  BitVec.eq_of_getLsbD_eq fun i hi => by
    rw [getLsbD_ackByte, BitVec.getLsbD_extractLsb', BitVec.getLsbD_extractLsb', Nat.zero_add]
    grind

theorem streamByte_of_bits {t : Byte} (h7 : t.getLsbD 7 = true) :
    1#1 ++ bit (t.getLsbD 6) ++ bit (t.getLsbD 5) ++ t.extractLsb' 2 3 ++ t.extractLsb' 0 2 = t :=
  BitVec.eq_of_getLsbD_eq fun i hi => by
    rw [getLsbD_streamByte, BitVec.getLsbD_extractLsb', BitVec.getLsbD_extractLsb', Nat.zero_add]
    grind

/-- R85: the fixed type bytes are the numbers of their order. -/
theorem encode_fixedFrames {k : Nat} {b : FrameByte} (h : fixedFrames[k]? = some b) :
    encode (instrOfFrame b) = .ft (BitVec.ofNat 8 k) := by
  have hall : ∀ k : Fin 8, encode (instrOfFrame fixedFrames[k]) = .ft (BitVec.ofNat 8 k) := by decide
  obtain ⟨hk, rfl⟩ := List.getElem?_eq_some_iff.1 h
  exact hall ⟨k, hk⟩

/-- The decoder's class of a type byte, told by its top three bits, keeps every other bit as a field. -/
theorem encode_of_decodeFrameByte {t : Byte} {b : FrameByte} (h : decodeFrameByte t = .ok b) :
    encode (instrOfFrame b) = .ft t := by
  cases h7 : t.getLsbD 7 with
  | true =>
    cases (decodeFrameByte_stream h7).symm.trans h
    exact congrArg Encoding.ft (streamByte_of_bits h7)
  | false =>
    cases h6 : t.getLsbD 6 with
    | true =>
      cases (decodeFrameByte_ack h6 h7).symm.trans h
      exact congrArg Encoding.ft (ackByte_of_bits h6 h7)
    | false =>
      cases h5 : t.getLsbD 5 with
      | true =>
        cases (decodeFrameByte_congestion h5 h6 h7).symm.trans h
        exact congrArg Encoding.ft (congestionByte_of_bits h5 h6 h7)
      | false =>
        have hsmall : t.toNat ≤ 0x1F := by
          have hlt := t.isLt
          simp only [BitVec.getLsbD, Nat.testBit_eq_decide_div_mod_eq, decide_eq_false_iff_not] at h5 h6 h7
          omega
        by_cases hfixed : t.toNat ≤ 0x07
        · obtain ⟨b', hb', hdecode⟩ := decodeFrameByte_fixed hfixed
          cases hdecode.symm.trans h
          rw [encode_fixedFrames hb', BitVec.ofNat_toNat, BitVec.setWidth_eq]
        · cases (decodeFrameByte_reserved (by omega) hsmall).symm.trans h

/-! ## Public flags bytes -/

theorem flagsPattern_of_wellFormed {f : Byte} (h : f &&& 0xC8 = 0x08) :
    flagsPattern (f.extractLsb' 4 2) (f.getLsbD 2) (f.getLsbD 1) (f.getLsbD 0) = f := by
  obtain ⟨h3, h6, h7⟩ := (wellFormedMask_iff f).1 h
  refine BitVec.eq_of_getLsbD_eq fun i hi => ?_
  rw [getLsbD_flagsPattern, BitVec.getLsbD_extractLsb']
  grind

/-- R88: the encoder names the client where the role does not decide the variant, and the server for a Negotiation. -/
theorem encode_flagsVariant (sb : Role) {f : Byte} (h : f &&& 0xC8 = 0x08) :
    encode (instrOfFlags (flagsVariant sb f)) = .pf .client f ∨
      encode (instrOfFlags (flagsVariant sb f)) = .pf .server f := by
  have hf := flagsPattern_of_wellFormed h
  unfold flagsVariant
  split_ifs with h1 hneg
  · rw [h1] at hf
    exact .inl (congrArg (Encoding.pf .client) hf)
  · rw [eq_false_of_ne_true h1, (Bool.and_eq_true_iff.1 hneg).1] at hf
    exact .inr (congrArg (Encoding.pf .server) hf)
  · rw [eq_false_of_ne_true h1] at hf
    exact .inl (congrArg (Encoding.pf .client) hf)

/-! ## The decoder -/

/-- What a format's own decoder answers, the decoder makes an instruction. -/
theorem decode_ft_ok_iff {t : Byte} {i : Instr} :
    decode (.ft t) = .ok i ↔ ∃ b, decodeFrameByte t = .ok b ∧ i = instrOfFrame b := by
  rw [decode]
  cases decodeFrameByte t <;> simp [Except.map, eq_comm]

theorem decode_pf_ok_iff {sb : Role} {f : Byte} {i : Instr} :
    decode (.pf sb f) = .ok i ↔ ∃ b, decodeFlagsByte sb f = .ok b ∧ i = instrOfFlags b := by
  rw [decode]
  cases decodeFlagsByte sb f <;> simp [Except.map, eq_comm]

/-- Settles O2: one lemma for each format. -/
theorem encodeOfDecodedIsTheSameBits : Obligations.EncodeOfDecodedIsTheSameBits := by
  refine ⟨fun w i h => encode_of_decodeCommand h, fun t i h => ?type, fun sb f i h => ?flags⟩
  case type =>
    obtain ⟨b, hb, rfl⟩ := decode_ft_ok_iff.1 h
    exact encode_of_decodeFrameByte hb
  case flags =>
    obtain ⟨b, hb, rfl⟩ := decode_pf_ok_iff.1 h
    by_cases hwf : f &&& 0xC8 = 0x08
    · cases (decodeFlagsByte_of_wellFormed sb hwf).symm.trans hb
      exact encode_flagsVariant sb hwf
    · obtain ⟨e, he⟩ := decodeFlagsByte_of_not_wellFormed sb hwf
      cases he.symm.trans hb

/-! ## The byte at the cursor -/

/-- FT_DEC runs a frame type byte just as the byte runs as an instruction (log entry 5). -/
theorem runFrameByte_eq_exec (b : FrameByte) (s : State) : runFrameByte b s = exec (instrOfFrame b) s := by
  cases b <;> rfl

theorem runFlagsByte_eq_exec (b : FlagsByte) (s : State) : runFlagsByte b s = exec (instrOfFlags b) s := by
  cases b <;> rfl

theorem exec_ftDec_of_decode {s : State} {b : FrameByte} (hmode : s.mode = .ready) (hlen : s.cur.toNat < s.len.toNat)
    (hb : decodeFrameByte (s.byte s.cur.toNat) = .ok b) :
    exec .ftDec s = exec (instrOfFrame b) (withCmd 0x0030 s) := by
  have hbyte : decodeFrameByte ((withCmd 0x0030 s).byte (withCmd 0x0030 s).cur.toNat) = .ok b := hb
  have hfit : ¬(withCmd 0x0030 s).short (withCmd 0x0030 s).cur.toNat 1 := Nat.not_lt.2 hlen
  calc exec .ftDec s = frameDecode (withCmd 0x0030 s) := command_ready hmode
    _ = runFrameByte b (withCmd 0x0030 s) := by rw [frameDecode, if_neg hfit, hbyte]
    _ = exec (instrOfFrame b) (withCmd 0x0030 s) := runFrameByte_eq_exec b _

theorem exec_pktParse_of_decode {s : State} {sb : Role} {w : CommandWord} {b : FlagsByte} (hmode : s.mode = .ready)
    (hword : sb = .client ∧ w = 0x0050 ∨ sb = .server ∧ w = 0x0150) (hlen : s.cur.toNat < s.len.toNat)
    (hb : decodeFlagsByte sb (s.byte s.cur.toNat) = .ok b) :
    exec (.pktParse sb) s = exec (instrOfFlags b) (withCmd w s) := by
  have hw : 0x0050 ||| roleBit sb = w := Encoding.cw.inj (encode_pktParse hword)
  have hbyte : decodeFlagsByte sb ((withCmd w s).byte (withCmd w s).cur.toNat) = .ok b := hb
  have hfit : ¬(withCmd w s).short (withCmd w s).cur.toNat 1 := Nat.not_lt.2 hlen
  calc exec (.pktParse sb) s = packetParse sb (withCmd (0x0050 ||| roleBit sb) s) := command_ready hmode
    _ = runFlagsByte b (withCmd w s) := by rw [hw, packetParse, if_neg hfit, hbyte]
    _ = exec (instrOfFlags b) (withCmd w s) := runFlagsByte_eq_exec b _

/-- Settles O8: the step issues the command, and the command runs the byte it meets. -/
theorem stepRunsTheByteAtTheCursor : Obligations.StepRunsTheByteAtTheCursor := by
  intro s rest i hmode hlen
  refine ⟨fun hpending hdecode => ?type, fun sb w hword hpending hdecode => ?flags⟩
  case type =>
    obtain ⟨b, hb, rfl⟩ := decode_ft_ok_iff.1 hdecode
    calc step s = exec .ftDec (acted rest s) :=
          stepRunsTheDecodedCommand s 0x0030 rest .ftDec hpending (decode_of_encode rfl)
      _ = exec (instrOfFrame b) (withCmd 0x0030 (acted rest s)) := exec_ftDec_of_decode hmode hlen hb
  case flags =>
    obtain ⟨b, hb, rfl⟩ := decode_pf_ok_iff.1 hdecode
    have hw : (w.setWidth 64).setWidth 16 = w := by
      rw [BitVec.setWidth_setWidth_of_le _ (by decide), BitVec.setWidth_eq]
    have hissue : decode (.cw ((w.setWidth 64).setWidth 16)) = .ok (.pktParse sb) := by
      rw [hw, ← encode_pktParse hword, decode_encode]
    calc step s = exec (.pktParse sb) (acted rest s) :=
          stepRunsTheDecodedCommand s (w.setWidth 64) rest (.pktParse sb) hpending hissue
      _ = exec (instrOfFlags b) (withCmd w (acted rest s)) := exec_pktParse_of_decode hmode hword hlen hb

end Sys2Proof.Machine
end

section
/-! The reset input (10_state.md R37, 70_reset_and_hazards.md R260) as the register port shows it. -/

namespace Sys2Proof.Machine

section

variable (cfg : Config.Params) (epoch : Nat) (rest : List HostAction)

/-- Every version slot holds 0. -/
theorem initial_supvAt (j : Nat) : (State.initial cfg epoch rest).supvAt j = 0 := by
  rw [State.supvAt, State.initial, List.getD_eq_getElem?_getD, List.getElem?_replicate]
  split <;> rfl

/-- R37: every register but the window on RANGE holds 0. -/
theorem regValue_initial {r : Reg} (hfirst : r ≠ .rfirst) (hlast : r ≠ .rlast) :
    regValue (State.initial cfg epoch rest) r = 0 := by
  cases r with
  | rfirst => exact absurd rfl hfirst
  | rlast => exact absurd rfl hlast
  | supv j => exact congrArg (BitVec.setWidth 64) (initial_supvAt cfg epoch rest j)
  | status => exact show (statusWord .ready 0).setWidth 64 = 0 by decide
  | _ => rfl

theorem portValue_initial {idx : BitVec 8} (hfirst : idx ≠ 0x1D) (hlast : idx ≠ 0x1E) :
    portValue idx (State.initial cfg epoch rest) = 0 := by
  cases hr : regAt cfg.nSupv idx with
  | none => exact portValue_of_regAt_none hr
  | some r =>
    have hindex (e : Nat × Reg) (he : e ∈ fixedRegisters) (hre : r = e.2) : idx.toNat = e.1 :=
      fixedRegisters_index_unique he (hre ▸ regAt_eq_some_iff.1 hr)
    rw [portValue_of_regAt hr]
    refine regValue_initial cfg epoch rest (fun h => hfirst ?_) (fun h => hlast ?_)
    · exact BitVec.eq_of_toNat_eq (hindex (0x1D, .rfirst) (by decide) h)
    · exact BitVec.eq_of_toNat_eq (hindex (0x1E, .rlast) (by decide) h)

/-- R33: with no slot enabled no tag is supported. -/
theorem initial_supported (v : Nat) : (State.initial cfg epoch rest).supported v = false := by
  refine Bool.eq_false_iff.2 fun h => ?_
  obtain ⟨j, -, hj, -⟩ := (State.supported_iff v).1 h
  exact absurd (hj.symm.trans (BitVec.getLsbD_zero (w := 16))) (by decide)

end

/-- Settles O13: the input leads to `State.initial` whatever the mode, with empty tables of BUF and RANGE. -/
theorem resetInputGivesTheResetState : Obligations.ResetInputGivesTheResetState := by
  intro s rest hpending
  exact ⟨State.initial s.cfg (s.epoch + 1) rest, step_act hpending, rfl, rfl, rfl, rfl,
    fun _ hfirst hlast => portValue_initial s.cfg (s.epoch + 1) rest hfirst hlast,
    initial_supported s.cfg (s.epoch + 1) rest, fun _ => rfl, fun _ => ⟨rfl, rfl⟩⟩

end Sys2Proof.Machine
end

section
/-! FINFO and FWID as numbers (10_state.md R29), what each class of type byte leaves in them (42_frame_type.md R161,
R162), and that composing FINFO gives the byte back (R164). -/

namespace Sys2Proof.Machine

/-! ## Bit strings as numbers -/

/-- A bit string appended on the right is the lower part of the number. -/
theorem toNat_append_eq_add {m n : Nat} (x : BitVec m) (y : BitVec n) :
    (x ++ y).toNat = x.toNat * 2 ^ n + y.toNat := by
  rw [BitVec.toNat_append, ← Nat.shiftLeft_add_eq_or_of_lt y.isLt, Nat.shiftLeft_eq]

theorem toNat_bit (b : Bool) : (bit b).toNat = b.toNat := by cases b <;> rfl

theorem toNat_finfoOf (r : FrameFields) : (finfoOf r).toNat =
    r.kind.toNat + r.fin.toNat * 2 ^ 4 + r.hasData.toNat * 2 ^ 5 + r.offCode.toNat * 2 ^ 6 + r.sidCode.toNat * 2 ^ 9 +
      r.hasMiss.toNat * 2 ^ 11 + r.laCode.toNat * 2 ^ 12 + r.abCode.toNat * 2 ^ 14 := by
  show BitVec.toNat (w := 2 + 2 + 1 + 2 + 3 + 1 + 1 + 4) (r.abCode ++ r.laCode ++ r.hasMiss ++ r.sidCode ++ r.offCode ++
    r.hasData ++ r.fin ++ r.kind) = _
  simp only [toNat_append_eq_add]
  omega

theorem toNat_fwidOf (r : FrameFields) :
    (fwidOf r).toNat = r.offW.toNat + r.sidW.toNat * 2 ^ 3 + r.laW.toNat * 2 ^ 6 + r.abW.toNat * 2 ^ 9 := by
  show BitVec.toNat (w := 3 + 3 + 3 + 3) (r.abW ++ r.laW ++ r.sidW ++ r.offW) = _
  simp only [toNat_append_eq_add]
  omega

theorem toNat_ackByte (n : Bool) (ll : BitVec 2) (u : Bool) (mm : BitVec 2) :
    BitVec.toNat (w := 8) (0b01#2 ++ bit n ++ ll ++ bit u ++ mm) =
      0x40 + n.toNat * 32 + ll.toNat * 8 + u.toNat * 4 + mm.toNat := by
  show BitVec.toNat (w := 2 + 1 + 2 + 1 + 2) _ = _
  simp only [toNat_append_eq_add, toNat_bit, BitVec.toNat_ofNat]
  omega

theorem toNat_streamByte (f d : Bool) (ooo : BitVec 3) (ss : BitVec 2) :
    BitVec.toNat (w := 8) (1#1 ++ bit f ++ bit d ++ ooo ++ ss) =
      0x80 + f.toNat * 64 + d.toNat * 32 + ooo.toNat * 4 + ss.toNat := by
  show BitVec.toNat (w := 1 + 1 + 1 + 3 + 2) _ = _
  simp only [toNat_append_eq_add, toNat_bit, BitVec.toNat_ofNat]
  omega

/-- A word is told by its number. -/
theorem eq_ofNat_of_toNat {w n : Nat} {v : BitVec w} (h : v.toNat = n) : v = BitVec.ofNat w n := by
  rw [← h, BitVec.ofNat_toNat, BitVec.setWidth_eq]

/-! ## The fields of FINFO (R29) -/

section

variable (r : FrameFields)

theorem field_finfoOf_kind : field (finfoOf r) 3 0 = r.kind.toNat := by
  rw [field, toNat_finfoOf]; omega

theorem field_finfoOf_fin : field (finfoOf r) 4 4 = r.fin.toNat := by
  rw [field, toNat_finfoOf]; omega

theorem field_finfoOf_hasData : field (finfoOf r) 5 5 = r.hasData.toNat := by
  rw [field, toNat_finfoOf]; omega

theorem field_finfoOf_offCode : field (finfoOf r) 8 6 = r.offCode.toNat := by
  rw [field, toNat_finfoOf]; omega

theorem field_finfoOf_sidCode : field (finfoOf r) 10 9 = r.sidCode.toNat := by
  rw [field, toNat_finfoOf]; omega

theorem field_finfoOf_hasMiss : field (finfoOf r) 11 11 = r.hasMiss.toNat := by
  rw [field, toNat_finfoOf]; omega

theorem field_finfoOf_laCode : field (finfoOf r) 13 12 = r.laCode.toNat := by
  rw [field, toNat_finfoOf]; omega

theorem field_finfoOf_abCode : field (finfoOf r) 15 14 = r.abCode.toNat := by
  rw [field, toNat_finfoOf]; omega

end

/-! ## The rule of a type byte -/

/-- The four shapes of a type byte (R84, R85). -/
theorem frameByte_cases (b : FrameByte) : (∃ k : Nat, fixedFrames[k]? = some b) ∨ (∃ x, b = .congestionFeedback x) ∨
    (∃ n ll u mm, b = .ack n ll u mm) ∨ ∃ f d ooo ss, b = .stream f d ooo ss := by
  cases b with
  | padding => exact .inl ⟨0, rfl⟩
  | rstStream => exact .inl ⟨1, rfl⟩
  | connectionClose => exact .inl ⟨2, rfl⟩
  | goaway => exact .inl ⟨3, rfl⟩
  | windowUpdate => exact .inl ⟨4, rfl⟩
  | blocked => exact .inl ⟨5, rfl⟩
  | stopWaiting => exact .inl ⟨6, rfl⟩
  | ping => exact .inl ⟨7, rfl⟩
  | congestionFeedback x => exact .inr (.inl ⟨x, rfl⟩)
  | ack n ll u mm => exact .inr (.inr (.inl ⟨n, ll, u, mm, rfl⟩))
  | stream f d ooo ss => exact .inr (.inr (.inr ⟨f, d, ooo, ss, rfl⟩))

/-- R161: a fixed type byte is its own kind. -/
theorem frameRule_fixed {k : Nat} {b : FrameByte} (h : fixedFrames[k]? = some b) (s : State) :
    frameRule b s = .ok (classified (BitVec.ofNat 8 k) { kind := BitVec.ofNat 4 k } s) := by
  obtain ⟨hk, rfl⟩ := List.getElem?_eq_some_iff.1 h
  change k < 8 at hk
  interval_cases k <;> rfl

theorem frameRule_stream {ooo : BitVec 3} (hooo : ooo ≠ 7) (f d : Bool) (ss : BitVec 2) (s : State) :
    frameRule (.stream f d ooo ss) s =
      .ok (classified (frameTypeByte (.stream f d ooo ss)) (streamFields f d ooo ss) s) := if_neg hooo

theorem exec_instrOfFrame {s : State} {b : FrameByte} (hmode : s.mode = .ready) :
    exec (instrOfFrame b) s = settle (frameRule b) s := by
  rw [← runFrameByte_eq_exec, runFrameByte_eq b s hmode]

/-! ## Classification (R161, R162) -/

/-- A type byte whose rule leaves the fields `r` does so by itself and where FT_DEC meets it, whose word is then in
CMD. -/
theorem classified_both_ways {s : State} {b : FrameByte} {t : Byte} {r : FrameFields} {fi fw : Nat}
    (hmode : s.mode = .ready) (hdecode : decodeFrameByte t = .ok b)
    (hrule : ∀ s, frameRule b s = .ok (classified t r s)) (hfi : (finfoOf r).toNat = fi)
    (hfw : (fwidOf r).toNat = fw) :
    exec (instrOfFrame b) s = .next { s with tb := t, finfo := BitVec.ofNat 16 fi, fwid := BitVec.ofNat 12 fw } ∧
    (s.cur.toNat < s.len.toNat → s.byte s.cur.toNat = t → exec .ftDec s = .next
      { s with cmd := 0x0030, tb := t, finfo := BitVec.ofNat 16 fi, fwid := BitVec.ofNat 12 fw }) := by
  have hexec (s : State) (hmode : s.mode = .ready) : exec (instrOfFrame b) s =
      .next { s with tb := t, finfo := BitVec.ofNat 16 fi, fwid := BitVec.ofNat 12 fw } := by
    rw [exec_instrOfFrame hmode, settle_of_ok (hrule s), classified, eq_ofNat_of_toNat hfi, eq_ofNat_of_toNat hfw]
  refine ⟨hexec s hmode, fun hlen hbyte => ?_⟩
  rw [exec_ftDec_of_decode hmode hlen (hbyte ▸ hdecode)]
  exact hexec (withCmd 0x0030 s) hmode

/-- A width fits the three bits that FWID has for it. -/
theorem pnOfCode_lt (c : Nat) : pnOfCode c < 8 := by
  unfold pnOfCode
  split <;> decide

theorem offOfCode_lt : ∀ ooo : BitVec 3, ooo ≠ 7 → offOfCode ooo.toNat < 8 := by decide

/-- Settles O34: each kind has its fields, and the numbers are those of `toNat_finfoOf` and `toNat_fwidOf`. -/
theorem typeBytesClassify : Obligations.TypeBytesClassify := by
  rintro s i t fi fw hmode hencode (⟨k, hk, rfl, rfl, rfl⟩ | ⟨x, rfl, rfl, rfl⟩ | ⟨n, ll, u, mm, rfl, rfl, rfl⟩ |
    ⟨f, d, ooo, ss, rfl, hooo, rfl, rfl⟩)
  case inl =>
    obtain ⟨b, hb, hdecode⟩ := decodeFrameByte_fixed hk
    obtain rfl : instrOfFrame b = i :=
      Except.ok.inj ((decode_ft_ok hdecode).symm.trans (decode_of_encode hencode))
    refine classified_both_ways hmode hdecode (r := { kind := BitVec.ofNat 4 t.toNat }) (fun s => ?_) ?_ ?_
    · rw [frameRule_fixed hb s, ← eq_ofNat_of_toNat rfl]
    · simp [toNat_finfoOf, Nat.mod_eq_of_lt (show t.toNat < 16 by omega)]
    · simp [toNat_fwidOf]
  case inr.inl =>
    cases hencode
    exact classified_both_ways hmode (decodeFrameByte_congestionByte x) (fun _ => rfl) rfl rfl
  case inr.inr.inl =>
    cases hencode
    refine classified_both_ways hmode (decodeFrameByte_ackByte n ll u mm) (fun _ => rfl) ?_ ?_
    · simp [toNat_finfoOf, ackFields, toNat_bit]
    · simp [toNat_fwidOf, ackFields, Nat.mod_eq_of_lt (pnOfCode_lt _)]
  case inr.inr.inr =>
    cases hencode
    refine classified_both_ways hmode (decodeFrameByte_streamByte f d ooo ss) (frameRule_stream hooo f d ss) ?_ ?_
    · simp [toNat_finfoOf, streamFields, toNat_bit]
    · have hss : ss.toNat + 1 < 8 := by have := ss.isLt; omega
      simp [toNat_fwidOf, streamFields, sidOfCode, Nat.mod_eq_of_lt (offOfCode_lt ooo hooo), Nat.mod_eq_of_lt hss]

/-! ## Composition inverts classification (R164) -/

/-- A type byte with its ignored bits cleared: bit 2 of an ACK, bits 4:0 of a CONGESTION_FEEDBACK. -/
def ignoredCleared (b : Byte) : Byte :=
  if b &&& 0xC0 = 0x40 then b &&& 0xFB else if b &&& 0xE0 = 0x20 then 0x20 else b

theorem ignoredCleared_congestion (x : BitVec 5) : ignoredCleared (0b001#3 ++ x) = 0x20 := by
  have hbit := getLsbD_congestionByte x
  have hack : ¬BitVec.and (n := 8) (0b001#3 ++ x) 0xC0 = 0x40 := fun h =>
    Bool.false_ne_true ((hbit 6).symm.trans ((ackMask_iff _).1 h).1)
  exact (if_neg hack).trans (if_pos ((congestionMask_iff _).2 ⟨hbit 5, hbit 6, hbit 7⟩))

theorem ignoredCleared_ack (n : Bool) (ll : BitVec 2) (u : Bool) (mm : BitVec 2) :
    ignoredCleared (0b01#2 ++ bit n ++ ll ++ bit u ++ mm) = 0b01#2 ++ bit n ++ ll ++ bit false ++ mm := by
  have hbit := getLsbD_ackByte n ll u mm
  refine (if_pos ((ackMask_iff _).2 ⟨hbit 6, hbit 7⟩)).trans (BitVec.eq_of_getLsbD_eq fun i hi => ?_)
  have hmask : ∀ i : Fin 8, BitVec.getLsbD (0xFB : Byte) i = decide (i ≠ 2) := by decide
  have hselected := hmask ⟨i, hi⟩
  rw [BitVec.getLsbD_and, hbit, getLsbD_ackByte]
  grind

theorem ignoredCleared_stream (f d : Bool) (ooo : BitVec 3) (ss : BitVec 2) :
    ignoredCleared (1#1 ++ bit f ++ bit d ++ ooo ++ ss) = 1#1 ++ bit f ++ bit d ++ ooo ++ ss := by
  have h7 : BitVec.getLsbD (w := 8) (1#1 ++ bit f ++ bit d ++ ooo ++ ss) 7 = true := getLsbD_streamByte f d ooo ss 7
  have hack : ¬BitVec.and (n := 8) (1#1 ++ bit f ++ bit d ++ ooo ++ ss) 0xC0 = 0x40 := fun h =>
    Bool.false_ne_true (((ackMask_iff _).1 h).2.symm.trans h7)
  have hcongestion : ¬BitVec.and (n := 8) (1#1 ++ bit f ++ bit d ++ ooo ++ ss) 0xE0 = 0x20 := fun h =>
    Bool.false_ne_true (((congestionMask_iff _).1 h).2.2.symm.trans h7)
  exact (if_neg hack).trans (if_neg hcongestion)

theorem ftCompose_finfoOf_fixed {k : Nat} (hk : k < 8) :
    ftCompose (finfoOf { kind := BitVec.ofNat 4 k }) = .ok (ignoredCleared (BitVec.ofNat 8 k)) := by
  interval_cases k <;> rfl

theorem ftCompose_finfoOf_ack (n : Bool) (ll mm : BitVec 2) :
    ftCompose (finfoOf (ackFields n ll mm)) = .ok (0b01#2 ++ bit n ++ ll ++ bit false ++ mm) := by
  rw [ftCompose_ack (field_finfoOf_kind _), field_finfoOf_hasMiss, field_finfoOf_laCode, field_finfoOf_abCode,
    eq_ofNat_of_toNat (toNat_ackByte n ll false mm), ackFields, toNat_bit]
  rfl

theorem ftCompose_finfoOf_stream {ooo : BitVec 3} (hooo : ooo ≠ 7) (f d : Bool) (ss : BitVec 2) :
    ftCompose (finfoOf (streamFields f d ooo ss)) = .ok (1#1 ++ bit f ++ bit d ++ ooo ++ ss) := by
  have hoff : field (finfoOf (streamFields f d ooo ss)) 8 6 ≠ 7 := by
    rw [field_finfoOf_offCode]
    exact fun h => hooo (BitVec.eq_of_toNat_eq h)
  rw [ftCompose_stream (field_finfoOf_kind _) hoff, field_finfoOf_fin, field_finfoOf_hasData, field_finfoOf_offCode,
    field_finfoOf_sidCode, eq_ofNat_of_toNat (toNat_streamByte f d ooo ss), streamFields, toNat_bit, toNat_bit]

/-- A rule that ends in READY mode has not taken a fault. -/
theorem settle_ready {body : State → Except FaultCode State} {s t : State} (h : settle body s = .next t)
    (hready : t.mode = .ready) : body s = .ok t := by
  obtain hok | ⟨e, -, rfl⟩ := settle_cases h
  · exact hok
  · cases hready

/-- Settles O37: each shape of type byte has one equation of the composition. -/
theorem composeInvertsClassify : Obligations.ComposeInvertsClassify := by
  intro i s t b hmode hencode hexec hready
  obtain ⟨frame, -, rfl⟩ := decode_ft_ok_iff.1 (decode_of_encode hencode)
  have hrule : frameRule frame s = .ok t := settle_ready ((exec_instrOfFrame hmode).symm.trans hexec) hready
  show ftCompose t.finfo = .ok (ignoredCleared b)
  obtain ⟨k, hk⟩ | ⟨x, rfl⟩ | ⟨n, ll, u, mm, rfl⟩ | ⟨f, d, ooo, ss, rfl⟩ := frameByte_cases frame
  · cases (encode_fixedFrames hk).symm.trans hencode
    cases (frameRule_fixed hk s).symm.trans hrule
    exact ftCompose_finfoOf_fixed (List.getElem?_eq_some_iff.1 hk).1
  · cases hencode
    cases hrule
    rw [ignoredCleared_congestion]
    exact ftCompose_congestion (field_finfoOf_kind _)
  · cases hencode
    cases hrule
    rw [ignoredCleared_ack]
    exact ftCompose_finfoOf_ack n ll mm
  · cases hencode
    have hooo : ooo ≠ 7 := fun h => by
      rw [h, frameRule_stream_reserved] at hrule
      cases hrule
    cases (frameRule_stream hooo f d ss s).symm.trans hrule
    rw [ignoredCleared_stream]
    exact ftCompose_finfoOf_stream hooo f d ss

end Sys2Proof.Machine
end

section
/-! The laws of the 16-bit float (41_vli.md R149, log entry 12). Every value from 4096 up is `m * 2 ^ e + r` with a
mantissa `m` of twelve bits and a remainder `r` below `2 ^ e`; encoding drops the remainder. -/

namespace Sys2Proof.Machine

/-! ## Values by mantissa and exponent -/

/-- A mantissa of twelve bits with its top bit set, and an exponent that the format has (R149). -/
structure FloatParts (m e : Nat) : Prop where
  low : 2048 ≤ m
  high : m ≤ 4095
  expPos : 1 ≤ e
  expLe : e ≤ 30

/-- The code of a mantissa and an exponent. -/
def floatCode (m e : Nat) : Nat := (e + 1) * 2048 + (m - 2048)

section

variable {m e r v c : Nat}

theorem FloatParts.floatCode_lt (h : FloatParts m e) : floatCode m e < 65536 := by
  obtain ⟨hlow, hhigh, -, hle⟩ := h
  unfold floatCode
  omega

/-- A code from 4096 up has a mantissa and an exponent. -/
theorem exists_floatCode (hlow : 4096 ≤ c) (hhigh : c < 65536) : ∃ m e, FloatParts m e ∧ c = floatCode m e := by
  refine ⟨2048 + c % 2048, c / 2048 - 1, ⟨?_, ?_, ?_, ?_⟩, ?_⟩
  case refine_5 => unfold floatCode; omega
  all_goals omega

/-- A value from 4096 up to UF16_MAX has a mantissa, an exponent fixed by its length, and a remainder. -/
theorem exists_floatParts (hlow : 4096 ≤ v) (hhigh : v ≤ Config.uf16Max) :
    ∃ m e r, FloatParts m e ∧ r < 2 ^ e ∧ v = m * 2 ^ e + r := by
  obtain ⟨e, he⟩ : ∃ e, v.log2 = e + 11 :=
    ⟨v.log2 - 11, (Nat.sub_add_cancel ((Nat.le_log2 (by omega)).2 (by omega))).symm⟩
  obtain ⟨hmin, hmax⟩ := (Nat.log2_eq_iff (by omega)).1 he
  have hpos : 1 ≤ e := by
    have hlog : 12 ≤ v.log2 := (Nat.le_log2 (by omega)).2 hlow
    omega
  have hle : e ≤ 30 := by
    have hlog : v.log2 < 42 := (Nat.log2_lt (by omega)).2 (lt_of_le_of_lt hhigh (by decide))
    omega
  refine ⟨v / 2 ^ e, e, v % 2 ^ e, ⟨?_, ?_, hpos, hle⟩, Nat.mod_lt _ (Nat.two_pow_pos e), (Nat.div_add_mod' v _).symm⟩
  · rw [Nat.le_div_iff_mul_le (Nat.two_pow_pos e)]
    calc 2048 * 2 ^ e = 2 ^ (e + 11) := by rw [pow_add]; omega
      _ ≤ v := hmin
  · refine Nat.le_of_lt_succ ((Nat.div_lt_iff_lt_mul (Nat.two_pow_pos e)).2 ?_)
    calc v < 2 ^ (e + 12) := hmax
      _ = 4096 * 2 ^ e := by rw [pow_add]; omega

/-! ## Decoding -/

theorem uf16Dec_small (h : c < 4096) : uf16Dec c = c := if_pos h

theorem uf16Dec_floatCode (h : FloatParts m e) : uf16Dec (floatCode m e) = m * 2 ^ e := by
  obtain ⟨hlow, hhigh, hpos, -⟩ := h
  have hcode : ¬floatCode m e < 4096 := by unfold floatCode; omega
  have hm : 2048 + floatCode m e % 2048 = m := by unfold floatCode; omega
  have he : floatCode m e / 2048 - 1 = e := by unfold floatCode; omega
  rw [uf16Dec, if_neg hcode, hm, he]

/-- The next code has the next mantissa, or after the largest one the next exponent. -/
theorem uf16Dec_lt_succ (c : Nat) : uf16Dec c < uf16Dec (c + 1) := by
  by_cases hsmall : c + 1 < 4096
  · rw [uf16Dec_small hsmall, uf16Dec_small (by omega)]
    omega
  by_cases hborder : c + 1 = 4096
  · obtain rfl : c = 4095 := by omega
    decide
  have hpos := Nat.two_pow_pos (c / 2048 - 1)
  rw [uf16Dec, uf16Dec, if_neg (by omega), if_neg (by omega)]
  by_cases hmantissa : c % 2048 = 2047
  · have hm : (c + 1) % 2048 = 0 := by omega
    have he : (c + 1) / 2048 - 1 = c / 2048 - 1 + 1 := by omega
    rw [hm, he, hmantissa, pow_succ]
    omega
  · have hm : (c + 1) % 2048 = c % 2048 + 1 := by omega
    have he : (c + 1) / 2048 - 1 = c / 2048 - 1 := by omega
    rw [hm, he, ← Nat.add_assoc, Nat.succ_mul]
    omega

theorem uf16Dec_strictMono : StrictMono uf16Dec := strictMono_nat_of_lt_succ uf16Dec_lt_succ

/-! ## Encoding -/

theorem uf16Enc_small (h : v < 4096) : uf16Enc v = v := if_pos h

/-- UF16_MAX has the largest mantissa and the largest exponent, and its code saturates the encoder. -/
theorem uf16Enc_saturates (h : Config.uf16Max ≤ v) : uf16Enc v = floatCode 4095 30 := by
  have hlarge : ¬v < 4096 := Nat.not_lt.2 (le_trans (by decide) h)
  exact (if_neg hlarge).trans (if_pos h)

theorem floatParts_max : FloatParts 4095 30 := ⟨by decide, by decide, by decide, by decide⟩

/-- A value with a mantissa of twelve bits is as long as its exponent says (00_scope.md R8). -/
theorem bitlen_of_floatParts (h : FloatParts m e) (hr : r < 2 ^ e) : bitlen (m * 2 ^ e + r) = e + 12 := by
  have hmin : 2048 * 2 ^ e ≤ m * 2 ^ e := Nat.mul_le_mul_right _ h.low
  have hmax : m * 2 ^ e ≤ 4095 * 2 ^ e := Nat.mul_le_mul_right _ h.high
  have hlog : (m * 2 ^ e + r).log2 = e + 11 := by
    rw [Nat.log2_eq_iff (by omega), Nat.add_assoc e 11 1, pow_add, pow_add]
    omega
  rw [bitlen, if_neg (by omega), hlog]

/-- Only the largest mantissa and exponent reach UF16_MAX. -/
theorem FloatParts.eq_max (h : FloatParts m e) (hr : r < 2 ^ e) (hmax : Config.uf16Max ≤ m * 2 ^ e + r) :
    m = 4095 ∧ e = 30 := by
  obtain ⟨-, hhigh, -, hle⟩ := h
  have hbound : m * 2 ^ e ≤ 4095 * 2 ^ e := Nat.mul_le_mul_right _ hhigh
  have huf : Config.uf16Max = 4095 * 2 ^ 30 := by decide
  have he : e = 30 := by
    by_contra hne
    have hpow : 2 ^ e ≤ 2 ^ 29 := Nat.pow_le_pow_right (by decide) (by omega)
    omega
  rw [he] at hr hmax
  exact ⟨by omega, he⟩

/-- R149: truncation toward zero. -/
theorem uf16Enc_floatParts (h : FloatParts m e) (hr : r < 2 ^ e) : uf16Enc (m * 2 ^ e + r) = floatCode m e := by
  by_cases hmax : Config.uf16Max ≤ m * 2 ^ e + r
  · obtain ⟨rfl, rfl⟩ := h.eq_max hr hmax
    exact uf16Enc_saturates hmax
  · have htwo : 2 ^ 1 ≤ 2 ^ e := Nat.pow_le_pow_right (by decide) h.expPos
    have hmin : 2048 * 2 ^ e ≤ m * 2 ^ e := Nat.mul_le_mul_right _ h.low
    have hdiv : (m * 2 ^ e + r) / 2 ^ e = m := by
      rw [Nat.mul_comm, Nat.mul_add_div (Nat.two_pow_pos e), Nat.div_eq_of_lt hr, Nat.add_zero]
    have hlarge : ¬m * 2 ^ e + r < 4096 := by omega
    rw [uf16Enc, if_neg hlarge, if_neg hmax, bitlen_of_floatParts h hr, Nat.add_sub_cancel]
    show (e + 1) * 2048 + ((m * 2 ^ e + r) / 2 ^ e - 2048) = (e + 1) * 2048 + (m - 2048)
    rw [hdiv]

theorem uf16Enc_floatParts_exact (h : FloatParts m e) : uf16Enc (m * 2 ^ e) = floatCode m e :=
  uf16Enc_floatParts (r := 0) h (Nat.two_pow_pos e)

/-! ## The laws -/

theorem uf16Enc_uf16Dec (hc : c < 65536) : uf16Enc (uf16Dec c) = c := by
  by_cases hsmall : c < 4096
  · rw [uf16Dec_small hsmall, uf16Enc_small hsmall]
  · obtain ⟨m, e, hparts, hcode⟩ := exists_floatCode (Nat.not_lt.1 hsmall) hc
    rw [hcode, uf16Dec_floatCode hparts, uf16Enc_floatParts_exact hparts]

/-- Truncation loses the remainder and nothing else. -/
theorem uf16Dec_uf16Enc_floatParts (h : FloatParts m e) (hr : r < 2 ^ e) :
    uf16Dec (uf16Enc (m * 2 ^ e + r)) = m * 2 ^ e := by
  rw [uf16Enc_floatParts h hr, uf16Dec_floatCode h]

theorem uf16Dec_uf16Enc_le (hmax : v ≤ Config.uf16Max) : uf16Dec (uf16Enc v) ≤ v := by
  by_cases hsmall : v < 4096
  · rw [uf16Enc_small hsmall, uf16Dec_small hsmall]
  · obtain ⟨m, e, r, hparts, hr, rfl⟩ := exists_floatParts (Nat.not_lt.1 hsmall) hmax
    rw [uf16Dec_uf16Enc_floatParts hparts hr]
    exact Nat.le_add_right _ _

/-- The representable values: those of the codes below 4096, and a mantissa of twelve bits times a power of 2. -/
theorem uf16Dec_uf16Enc_eq_iff (hmax : v ≤ Config.uf16Max) :
    uf16Dec (uf16Enc v) = v ↔ v < 4096 ∨ ∃ m e, 2048 ≤ m ∧ m ≤ 4095 ∧ 1 ≤ e ∧ e ≤ 30 ∧ v = m * 2 ^ e := by
  constructor
  · intro hexact
    by_cases hsmall : v < 4096
    · exact .inl hsmall
    · obtain ⟨m, e, r, hparts, hr, rfl⟩ := exists_floatParts (Nat.not_lt.1 hsmall) hmax
      rw [uf16Dec_uf16Enc_floatParts hparts hr] at hexact
      exact .inr ⟨m, e, hparts.low, hparts.high, hparts.expPos, hparts.expLe, hexact.symm⟩
  · rintro (hsmall | ⟨m, e, hlow, hhigh, hpos, hle, rfl⟩)
    · rw [uf16Enc_small hsmall, uf16Dec_small hsmall]
    · exact uf16Dec_uf16Enc_floatParts (r := 0) ⟨hlow, hhigh, hpos, hle⟩ (Nat.two_pow_pos e)

theorem uf16Enc_lt (v : Nat) : uf16Enc v < 65536 := by
  by_cases hsmall : v < 4096
  · rw [uf16Enc_small hsmall]
    omega
  by_cases hmax : v ≤ Config.uf16Max
  · obtain ⟨m, e, r, hparts, hr, rfl⟩ := exists_floatParts (Nat.not_lt.1 hsmall) hmax
    rw [uf16Enc_floatParts hparts hr]
    exact hparts.floatCode_lt
  · rw [uf16Enc_saturates (by omega)]
    exact floatParts_max.floatCode_lt

end

/-- Settles O33: each law by mantissa, exponent and remainder. -/
theorem floatLaws : Obligations.FloatLaws := by
  refine ⟨fun c hc => uf16Enc_uf16Dec hc, fun c d hcd _ => uf16Dec_strictMono hcd,
    fun v hv => ⟨uf16Dec_uf16Enc_le hv, uf16Dec_uf16Enc_eq_iff hv⟩, fun v hv => ?_, uf16Enc_lt⟩
  exact (congrArg uf16Dec (uf16Enc_saturates hv)).trans (uf16Dec_floatCode floatParts_max)

end Sys2Proof.Machine
end

section
/-! What a command that emits bytes wrote, a reader at the same cursor finds in BUF (40_common.md R115); and the round
trip of the three integer types (41_vli.md R152). -/

namespace Sys2Proof.Machine

/-! ## The reader of what was written -/

/-- A state that reads back what a command wrote on its way from `s` to `t`: it is READY, its CUR is where the command
began, its LEN reaches the new CUR, and it holds the bytes between the two. -/
structure ReadsBack (s t u : State) : Prop where
  mode : u.mode = .ready
  cur : u.cur = s.cur
  len : t.cur.toNat ≤ u.len.toNat
  bytes : ∀ a, s.cur.toNat ≤ a → a < t.cur.toNat → u.byte a = t.byte a

/-- The bytes `bs` stand at the cursor of `u` below LEN, and `t` has its cursor right behind them. -/
structure Delivered (t u : State) (bs : List Byte) : Prop where
  past : t.cur.toNat = u.cur.toNat + bs.length
  fits : u.cur.toNat + bs.length ≤ u.len.toNat
  holds : Holds u u.cur.toNat bs

theorem Delivered.cur_eq {t u : State} {bs : List Byte} (h : Delivered t u bs) :
    BitVec.ofNat 16 (u.cur.toNat + bs.length) = t.cur := (eq_ofNat_of_toNat h.past).symm

/-- Bytes emitted by a legal state end below `2^16`, so CUR is exactly behind them. -/
theorem delivered_of_emitted {s t u v : State} {bs : List Byte} (hlegal : s.Legal) (hreader : ReadsBack s t u)
    (ht : t = v.emitted bs) (hcur : v.cur = s.cur) (hfits : s.cur.toNat + bs.length ≤ s.cfg.bufSize) :
    Delivered t u bs := by
  have hsize := hlegal.params.1.2
  have hpast : t.cur.toNat = s.cur.toNat + bs.length := by
    rw [ht, emitted_cur, hcur, BitVec.toNat_ofNat, Nat.mod_eq_of_lt (by omega)]
  have hwritten : Holds t s.cur.toNat bs := by
    rw [ht, ← hcur]
    exact holds_emitted v bs
  have hlen := hreader.len
  rw [← hreader.cur] at hpast hwritten
  refine ⟨hpast, by omega, holds_congr hwritten fun k hk => hreader.bytes _ ?_ ?_⟩
  · rw [hreader.cur]
    exact Nat.le_add_right _ _
  · omega

/-- A command that ends in READY mode has ended in its rule's state. -/
theorem rule_of_ready {i : Instr} {w : CommandWord} {s t : State} (henc : encode i = .cw w) (hmode : s.mode = .ready)
    (hexec : exec i s = .next t) (hready : t.mode = .ready) : rule i (withCmd w s) = .ok t := by
  rw [exec_ready i s hmode, prepared_command henc] at hexec
  exact settle_ready hexec hready

/-! ## Registers in BUF -/

theorem toNat_lt_pow_256 {n : Nat} (x : BitVec (8 * n)) : x.toNat < 256 ^ n := by
  rw [← two_pow_eight_mul]
  exact x.isLt

/-- A register of `n` bytes, stored whole, is read back. -/
theorem memRead_register {n : Nat} {x : BitVec (8 * n)} {u : State} {a : Nat} (h : Holds u a (leBytes n x.toNat)) :
    BitVec.ofNat (8 * n) (u.memRead a n) = x :=
  (eq_ofNat_of_toNat (holds_memRead h (toNat_lt_pow_256 x)).symm).symm

/-! ## The round trip of the integer types (R152) -/

/-- A decode command with the width set and the lower bound of the encode command reads the value back. -/
theorem intDecode_reads_intEncode {enc dec : Instr} {wenc wdec : CommandWord} {lo hi : Nat} {width code : Nat → Nat}
    {widths : List Nat} (henc : encode enc = .cw wenc) (hencode : rule enc = intEncode lo hi width code)
    (hdec : encode dec = .cw wdec) (hdecode : rule dec = intDecode widths lo)
    (hwidth : ∀ v, v ≤ hi → LeastWidth widths v (width v)) (hwidths : ∀ w ∈ widths, w < 16) {s t u : State}
    (hlegal : s.Legal) (hmode : s.mode = .ready) (hexec : exec enc s = .next t) (hready : t.mode = .ready)
    (hreader : ReadsBack s t u) (hwid : u.wid = t.wid) :
    ∃ r, exec dec u = .next r ∧ r.mode = .ready ∧ r.val = s.val ∧ r.cur = t.cur := by
  have hrule := rule_of_ready henc hmode hexec hready
  rw [hencode] at hrule
  obtain ⟨hlow, hhigh, hroom, ht⟩ := intEncode_ok hrule
  obtain ⟨hmem, hfit, -⟩ := hwidth s.val.toNat hhigh
  have hdelivered : Delivered t u (leBytes (width s.val.toNat) s.val.toNat) :=
    delivered_of_emitted hlegal hreader ht rfl (by rw [leBytes_length]; exact hroom)
  have hcur := hdelivered.cur_eq
  have hfits := hdelivered.fits
  rw [leBytes_length] at hcur hfits
  have hw : u.wid.toNat = width s.val.toNat := by
    rw [hwid, ht]
    exact Nat.mod_eq_of_lt (hwidths _ hmem)
  have hread : u.memRead u.cur.toNat (width s.val.toNat) = s.val.toNat := holds_memRead hdelivered.holds hfit
  refine ⟨_, exec_intDecode_in hdec hdecode hreader.mode (hw ▸ hmem) ?_ ?_, hreader.mode, ?_, ?_⟩
  · rw [hw]
    exact Nat.not_lt.2 hfits
  · rw [hw, hread]
    exact hlow
  · rw [hw, hread]
    exact (eq_ofNat_of_toNat rfl).symm
  · rw [hw]
    exact hcur

/-- Settles O30: the three pairs of commands share their rules. -/
theorem integerRoundTrip : Obligations.IntegerRoundTrip := by
  intro enc dec hpair s t u hlegal hmode hexec hready humode hcur hwid hlen hbytes
  have hreader : ReadsBack s t u := ⟨humode, hcur, hlen, hbytes⟩
  simp only [List.mem_cons, Prod.mk.injEq, List.not_mem_nil, or_false] at hpair
  obtain ⟨rfl, rfl⟩ | ⟨rfl, rfl⟩ | ⟨rfl, rfl⟩ := hpair
  · exact intDecode_reads_intEncode rfl rfl rfl rfl (fun _ => pnWidth_least) (by decide) hlegal hmode hexec hready
      hreader hwid
  · exact intDecode_reads_intEncode rfl rfl rfl rfl (fun _ => sidWidth_least) (by decide) hlegal hmode hexec hready
      hreader hwid
  · exact intDecode_reads_intEncode rfl rfl rfl rfl (fun _ => offWidth_least) (by decide) hlegal hmode hexec hready
      hreader hwid

end Sys2Proof.Machine
end

section
/-! The round trips of the packet headers (44_packet.md R212): what a serializer wrote, field by field, and what
PKT_PARSE loads from it. -/

namespace Sys2Proof.Machine

section

variable {s t u : State} {a : Nat}

/-! ## The nonce -/

theorem holds_nonceBytes (h : Holds u a s.nonceBytes) :
    BitVec.ofNat 64 (u.memRead a 8) = s.nonce0 ∧ BitVec.ofNat 64 (u.memRead (a + 8) 8) = s.nonce1 ∧
      BitVec.ofNat 64 (u.memRead (a + 16) 8) = s.nonce2 ∧ BitVec.ofNat 64 (u.memRead (a + 24) 8) = s.nonce3 := by
  simp only [State.nonceBytes, holds_append, leBytes_length, List.length_append] at h
  obtain ⟨⟨⟨h0, h1⟩, h2⟩, h3⟩ := h
  exact ⟨memRead_register (n := 8) h0, memRead_register (n := 8) h1, memRead_register (n := 8) h2,
    memRead_register (n := 8) h3⟩

/-! ## Regular headers (R210, R202) -/

theorem toNat_flagsPattern (pp : BitVec 2) (n r v : Bool) :
    (flagsPattern pp n r v).toNat = pp.toNat * 16 + 8 + n.toNat * 4 + r.toNat * 2 + v.toNat := by
  show BitVec.toNat (w := 2 + 2 + 1 + 1 + 1 + 1) (0#2 ++ pp ++ 1#1 ++ bit n ++ bit r ++ bit v) = _
  simp only [toNat_append_eq_add, toNat_bit, BitVec.toNat_ofNat]
  omega

/-- R132: the width of a packet number is one of four, with the flag code of the width. -/
theorem pnWidth_pnum_least (s : State) : LeastWidth [1, 2, 4, 6] s.pnum.toNat (pnWidth s.pnum.toNat) :=
  pnWidth_least (Nat.le_of_lt_succ s.pnum.isLt)

theorem pnCode_lt (w : Nat) : pnCode w < 4 := by
  unfold pnCode
  split <;> decide

theorem pnOfCode_pnCode : ∀ w ∈ [1, 2, 4, 6], pnOfCode (pnCode w) = w := by decide

/-- The flag code of the packet number that the registers compose. -/
def regularCode (s : State) : BitVec 2 := BitVec.ofNat 2 (pnCode (pnWidth s.pnum.toNat))

theorem toNat_regularCode (s : State) : (regularCode s).toNat = pnCode (pnWidth s.pnum.toNat) :=
  Nat.mod_eq_of_lt (pnCode_lt _)

theorem pnOfCode_regularCode (s : State) : pnOfCode (regularCode s).toNat = pnWidth s.pnum.toNat := by
  rw [toNat_regularCode, pnOfCode_pnCode _ (pnWidth_pnum_least s).1]

/-- The flags byte of PKT_SER_REG is a Regular one, with the bits of PINFO. -/
theorem regularFlags_eq (s : State) :
    regularFlags s = flagsPattern (regularCode s) (s.pinfo.getLsbD 1) false (s.pinfo.getLsbD 0) := by
  rw [eq_ofNat_of_toNat (toNat_flagsPattern ..), toNat_regularCode, regularFlags]
  cases s.pinfo.getLsbD 0 <;> cases s.pinfo.getLsbD 1 <;> rfl

/-- The header in the registers of `s` stands in BUF of `u` from `a` on; `nonce` and `pnAt` are the addresses of the
nonce and of the packet number. -/
structure RegularAt (s u : State) (a nonce pnAt : Nat) : Prop where
  flags : u.byte a = regularFlags s
  cid : Holds u (a + 1) (leBytes 8 s.cid.toNat)
  version : s.pinfo.getLsbD 0 = true → Holds u (a + 9) (leBytes 4 s.ver.toNat)
  nonceBytes : s.pinfo.getLsbD 1 = true → Holds u nonce s.nonceBytes
  number : Holds u pnAt (leBytes (pnWidth s.pnum.toNat) s.pnum.toNat)

theorem regularAt_of_holds {nonce pnAt : Nat} (hnonce : nonce = a + 9 + if s.pinfo.getLsbD 0 then 4 else 0)
    (hpnAt : pnAt = nonce + if s.pinfo.getLsbD 1 then 32 else 0) (h : Holds u a (regularBytes s)) :
    RegularAt s u a nonce pnAt := by
  subst hpnAt hnonce
  simp only [regularBytes, holds_append, holds_cons, List.length_append, List.length_singleton, leBytes_length,
    apply_ite List.length, s.nonceBytes_length, List.length_nil, ← Nat.add_assoc] at h
  obtain ⟨⟨⟨⟨⟨hflags, -⟩, hcid⟩, hver⟩, hnonce⟩, hnumber⟩ := h
  exact ⟨hflags, hcid, fun hv => by rwa [if_pos hv] at hver, fun hn => by rwa [if_pos hn] at hnonce, hnumber⟩

/-- What a successful PKT_SER_REG has checked and emitted. -/
theorem serializeRegular_emits {sb : Role} (h : serializeRegular sb s = .ok t) :
    ¬(s.pinfo.getLsbD 0 = true ∧ sb = .server) ∧ s.pnum ≠ 0 ∧
      s.cur.toNat + (regularBytes s).length ≤ s.cfg.bufSize ∧
      t = (s.built (regularFlags s) 0 (pnWidth s.pnum.toNat)).emitted (regularBytes s) := by
  rw [serializeRegular_eq] at h
  split_ifs at h with hrole hzero
  obtain ⟨hroom, ht⟩ := emit_ok_iff.1 h
  exact ⟨hrole, hzero, hroom, ht⟩

/-- What the fields of a Regular header below LEN say. -/
def regularRead (u : State) (v n : Bool) (w ver nonce pnAt : Nat) : Parsed :=
  { nonceRead u n nonce (versionRead u v ver) with pnum := u.memRead pnAt w, pnlen := w, next := pnAt + w }

section

variable {v n : Bool} {pp : BitVec 2} {w ver nonce pnAt : Nat}

theorem parseRegular_complete (hw : w = pnOfCode pp.toNat) (hnonce : nonce = ver + if v then 4 else 0)
    (hpnAt : pnAt = nonce + if n then 32 else 0) (hfit : pnAt + w ≤ u.len.toNat)
    (hsup : v = true → u.supported (u.memRead ver 4) = true) (hpos : u.memRead pnAt w ≠ 0) :
    parseRegular v n pp u ver = .ok (regularRead u v n w ver nonce pnAt) := by
  subst hw hnonce hpnAt
  rw [parseRegular_supported (by omega) hsup, parseNonce_fits (by omega), parseNumber_read hfit hpos]
  rfl

theorem regularRead_pinfo : (regularRead u v n w ver nonce pnAt).pinfo = (if v then 1 else 0) + if n then 2 else 0 := by
  cases n <;> rfl

theorem regularRead_ver : (regularRead u v n w ver nonce pnAt).ver = if v then u.memRead ver 4 else 0 := by
  cases n <;> rfl

end

/-! ## PKT_PARSE -/

/-- A packet that is parsed is loaded, under the role that reads its byte as the variant. -/
theorem exec_pktParse_of_parsed {sb : Role} {b : FlagsByte} {p : Parsed} (hmode : u.mode = .ready)
    (hfit : u.cur.toNat + 9 ≤ u.len.toNat) (hdecode : decodeFlagsByte sb (u.byte u.cur.toNat) = .ok b)
    (hp : variantParse b u (u.cur.toNat + 9) = .ok p) : ∃ w, exec (.pktParse sb) u =
      .next (withCmd w (loadPacket (publicFlagsByte b) (u.memRead (u.cur.toNat + 1) 8) p u)) := by
  obtain ⟨-, hcommand⟩ := exec_of_parsed hmode hfit hp rfl
  cases sb with
  | client => exact ⟨_, hcommand .client _ (.inl ⟨rfl, rfl⟩) hdecode⟩
  | server => exact ⟨_, hcommand .server _ (.inr ⟨rfl, rfl⟩) hdecode⟩

/-- A Regular byte that a role may send is one that PKT_PARSE of that role reads as Regular (R88, R210). -/
theorem decodeFlagsByte_regular {sb : Role} {v : Bool} (h : ¬(v = true ∧ sb = .server)) (pp : BitVec 2) (n : Bool) :
    decodeFlagsByte sb (flagsPattern pp n false v) = .ok (.regular v n pp) := by
  cases sb with
  | client => exact decodeFlagsByte_regular_client pp n v
  | server =>
    obtain rfl : v = false := eq_false_of_ne_true fun hv => h ⟨hv, rfl⟩
    exact decodeFlagsByte_regular_server pp n

theorem pinfo_low_eq (p : BitVec 3) :
    BitVec.ofNat 3 ((if p.getLsbD 0 then 1 else 0) + if p.getLsbD 1 then 2 else 0) = p &&& 3 := by
  revert p
  decide

end

/-- Settles O58: the header written is one that PKT_PARSE reads as Regular under the same role, field by field. -/
theorem regularRoundTrip : Obligations.RegularRoundTrip := by
  intro sb s t u hlegal hmode hexec hready humode hcur hlen hbytes hsup
  obtain ⟨hrole, hpos, hroom, ht⟩ := serializeRegular_emits (rule_of_ready (i := .pktSerReg sb) rfl hmode hexec hready)
  have hdelivered : Delivered t u (regularBytes s) :=
    delivered_of_emitted hlegal ⟨humode, hcur, hlen, hbytes⟩ ht rfl hroom
  obtain ⟨nonce, hnonce⟩ : ∃ nonce, nonce = u.cur.toNat + 9 + if s.pinfo.getLsbD 0 then 4 else 0 := ⟨_, rfl⟩
  obtain ⟨pnAt, hpnAt⟩ : ∃ pnAt, pnAt = nonce + if s.pinfo.getLsbD 1 then 32 else 0 := ⟨_, rfl⟩
  obtain ⟨hflags, hcid, hversion, hnonceBytes, hnumber⟩ := regularAt_of_holds hnonce hpnAt hdelivered.holds
  have hend : u.cur.toNat + (regularBytes s).length = pnAt + pnWidth s.pnum.toNat := by
    rw [regularBytes_length]
    omega
  have hpast := hdelivered.cur_eq
  have hfits := hdelivered.fits
  rw [hend] at hpast hfits
  have hread : u.memRead pnAt (pnWidth s.pnum.toNat) = s.pnum.toNat := holds_memRead hnumber (pnWidth_pnum_least s).2.1
  have hver (hv : s.pinfo.getLsbD 0 = true) : u.memRead (u.cur.toNat + 9) 4 = s.ver.toNat :=
    holds_memRead (hversion hv) (toNat_lt_pow_256 (n := 4) s.ver)
  obtain ⟨w, hparse⟩ := exec_pktParse_of_parsed (sb := sb)
    (b := .regular (s.pinfo.getLsbD 0) (s.pinfo.getLsbD 1) (regularCode s)) humode (by omega)
    (by rw [hflags, regularFlags_eq]; exact decodeFlagsByte_regular hrole _ _)
    (parseRegular_complete (pnOfCode_regularCode s).symm hnonce hpnAt hfits (fun hv => by rw [hver hv]; exact hsup hv)
      (by rwa [hread, Ne, toNat_eq_zero_iff]))
  refine ⟨_, hparse, humode, hpast, ?pkind, memRead_register (n := 8) hcid, ?pinfo, ?pnum, ?pnlen, ?pflags, ?ver,
    ?nonce⟩
  case pkind => cases hn : s.pinfo.getLsbD 1 <;> rfl
  case pinfo => exact (congrArg _ regularRead_pinfo).trans (pinfo_low_eq s.pinfo)
  case pnum => exact (eq_ofNat_of_toNat hread.symm).symm
  case pnlen => exact ht ▸ rfl
  case pflags => exact ht ▸ (regularFlags_eq s).symm
  case ver =>
    refine (congrArg (BitVec.ofNat 32) regularRead_ver).trans ?_
    cases hv : s.pinfo.getLsbD 0 with
    | false => rfl
    | true => exact (eq_ofNat_of_toNat (hver hv).symm).symm
  case nonce =>
    cases hn : s.pinfo.getLsbD 1 with
    | false => exact ⟨rfl, rfl, rfl, rfl⟩
    | true => exact holds_nonceBytes (hnonceBytes hn)

end Sys2Proof.Machine
end

section
/-! The round trip of Reset packets (44_packet.md R204, R205, R212). -/

namespace Sys2Proof.Machine

section

variable {s t u : State} {ha : Bool} {e : Nat} {addr : List Byte}

/-! ## What PKT_SER_RST writes -/

/-- The three forms of a Reset packet (R207): whether it carries a socket address, the last end offset of its map, and
the bytes of the address. -/
def ResetForm (s : State) (ha : Bool) (e : Nat) (addr : List Byte) : Prop :=
  ha = false ∧ e = 40 ∧ addr = [] ∨
    ha = true ∧ s.afam = 0x0002 ∧ e = 48 ∧ addr = leBytes 4 (s.addr0.toNat % 2 ^ 32) ∨
    ha = true ∧ s.afam = 0x000A ∧ e = 60 ∧ addr = leBytes 8 s.addr0.toNat ++ leBytes 8 s.addr1.toNat

theorem exists_resetForm (h : ¬(ha = true ∧ s.afam ≠ 0x0002 ∧ s.afam ≠ 0x000A)) :
    ∃ e addr, ResetForm s ha e addr := by
  cases ha with
  | false => exact ⟨_, _, .inl ⟨rfl, rfl, rfl⟩⟩
  | true =>
    by_cases hv4 : s.afam = 0x0002
    · exact ⟨_, _, .inr (.inl ⟨rfl, hv4, rfl, rfl⟩)⟩
    · by_cases hv6 : s.afam = 0x000A
      · exact ⟨_, _, .inr (.inr ⟨rfl, hv6, rfl, rfl⟩)⟩
      · exact absurd ⟨rfl, hv4, hv6⟩ h

theorem ResetForm.bytes (h : ResetForm s ha e addr) : resetPacketBytes s ha = resetWire s ha e addr ∧
    (resetWire s ha e addr).length = 33 + (if ha then 8 else 0) + e := by
  obtain ⟨rfl, rfl, rfl⟩ | ⟨rfl, hfam, rfl, rfl⟩ | ⟨rfl, hfam, rfl, rfl⟩ := h
  · obtain ⟨hbytes, hlen, -⟩ := resetPacketBytes_of_form (s := s) (.inl ⟨rfl, rfl, rfl, rfl⟩)
    exact ⟨hbytes, hlen⟩
  · obtain ⟨hbytes, hlen, -⟩ := resetPacketBytes_of_form (s := s) (.inr (.inl ⟨rfl, hfam, rfl, rfl, rfl⟩))
    exact ⟨hbytes, hlen⟩
  · obtain ⟨hbytes, hlen, -⟩ := resetPacketBytes_of_form (s := s) (.inr (.inr ⟨rfl, hfam, rfl, rfl, rfl⟩))
    exact ⟨hbytes, hlen⟩

/-- What a successful PKT_SER_RST has checked and emitted. -/
theorem serializeReset_emits (h : serializeReset s = .ok t) : s.pnum ≠ 0 ∧
    ∃ e addr, ResetForm s (s.pinfo.getLsbD 2) e addr ∧
      s.cur.toNat + (resetWire s (s.pinfo.getLsbD 2) e addr).length ≤ s.cfg.bufSize ∧
      t = (s.built 0x0A 1 8).emitted (resetWire s (s.pinfo.getLsbD 2) e addr) := by
  rw [serializeReset_eq] at h
  split_ifs at h with hzero hfamily
  obtain ⟨e, addr, hform⟩ := exists_resetForm hfamily
  rw [hform.bytes.1] at h
  obtain ⟨hroom, ht⟩ := emit_ok_iff.1 h
  exact ⟨hzero, e, addr, hform, hroom, ht⟩

/-! ## The fields in BUF -/

/-- The Reset packet of the registers of `s` stands in BUF of `u` from `a` on, with its first value at `v`. -/
structure ResetAt (s u : State) (ha : Bool) (e : Nat) (addr : List Byte) (a v : Nat) : Prop where
  flags : u.byte a = 0x0A
  cid : Holds u (a + 1) (leBytes 8 s.cid.toNat)
  tag : Holds u (a + 9) tagPRST
  count : Holds u (a + 13) (leBytes 2 (if ha then 3 else 2))
  keys : Holds u (a + 17) resetKeys
  entry : ha = true → Holds u (a + 33) (addressEntry e)
  nonceBytes : Holds u v s.nonceBytes
  number : Holds u (v + 32) (leBytes 8 s.pnum.toNat)
  family : ha = true → Holds u (v + 40) (leBytes 2 s.afam.toNat)
  address : ha = true → Holds u (v + 42) addr
  port : ha = true → Holds u (v + 42 + addr.length) (leBytes 2 s.aport.toNat)

/-- The packet in the pieces that the parser reads. -/
theorem resetWire_eq_pieces : resetWire s ha e addr =
    [0x0A] ++ leBytes 8 s.cid.toNat ++ tagPRST ++ leBytes 2 (if ha then 3 else 2) ++ leBytes 2 0 ++ resetKeys ++
      (if ha then addressEntry e else []) ++ s.nonceBytes ++ leBytes 8 s.pnum.toNat ++
      (if ha then leBytes 2 s.afam.toNat ++ addr ++ leBytes 2 s.aport.toNat else []) := by
  simp only [resetWire, List.append_assoc]
  cases ha <;> rfl

theorem resetAt_of_holds {a v : Nat} (hv : v = a + 33 + if ha then 8 else 0)
    (h : Holds u a (resetWire s ha e addr)) : ResetAt s u ha e addr a v := by
  have htag : tagPRST.length = 4 := rfl
  have hkeys : resetKeys.length = 16 := rfl
  have hentry : (addressEntry e).length = 8 := rfl
  subst hv
  cases ha
  all_goals
    simp only [resetWire_eq_pieces, holds_append, holds_cons, List.length_append, List.length_singleton, leBytes_length,
      htag, hkeys, hentry, s.nonceBytes_length, List.length_nil, ← Nat.add_assoc, if_true, Bool.false_eq_true, if_false,
      Nat.add_zero] at h
  case false =>
    obtain ⟨⟨⟨⟨⟨⟨⟨⟨⟨⟨hflags, -⟩, hcid⟩, htag⟩, hcount⟩, -⟩, hkeys⟩, -⟩, hnonce⟩, hnumber⟩, -⟩ := h
    exact ⟨hflags, hcid, htag, hcount, hkeys, nofun, hnonce, hnumber, nofun, nofun, nofun⟩
  case true =>
    obtain ⟨⟨⟨⟨⟨⟨⟨⟨⟨⟨hflags, -⟩, hcid⟩, htag⟩, hcount⟩, -⟩, hkeys⟩, hentry⟩, hnonce⟩, hnumber⟩, ⟨hfamily, haddr⟩,
      hport⟩ := h
    exact ⟨hflags, hcid, htag, hcount, hkeys, fun _ => hentry, hnonce, hnumber, fun _ => hfamily, fun _ => haddr,
      fun _ => hport⟩

/-! ## What PKT_PARSE reads (R206) -/

theorem parseReset_complete {q a num : Nat} (htag : Holds u q tagPRST) (hnum : u.memRead (q + 4) 2 = num)
    (hkeys : Holds u (q + 8) resetKeys) (ha : a = q + 8 + 8 * num)
    (hindex : num = 2 ∧ e = 40 ∨ num = 3 ∧ (e = 48 ∨ e = 60) ∧ Holds u (q + 24) (addressEntry e))
    (hfamily : (e = 48 → u.memRead (a + 40) 2 = 0x0002) ∧ (e = 60 → u.memRead (a + 40) 2 = 0x000A))
    (hfit : a + e ≤ u.len.toNat) (hlow : 1 ≤ u.memRead (a + 32) 8) (hhigh : u.memRead (a + 32) 8 ≤ 0xFFFFFFFFFFFF) :
    parseReset u q = .ok (resetRead u a e) := by
  subst ha
  rw [parseReset_goodHead (by omega) hnum htag (hindex.imp And.left And.left), if_neg (Nat.not_lt.2 (by omega)),
    resetIndexParse_values hkeys hindex, parseResetValues_number hfit hlow hhigh, if_neg (by omega)]

/-- The packet written is parsed to its end. -/
theorem ResetAt.parse {a v : Nat} (h : ResetAt s u ha e addr a v) (hform : ResetForm s ha e addr)
    (hv : v = a + 33 + if ha then 8 else 0) (hfit : v + e ≤ u.len.toNat) (hpos : s.pnum ≠ 0) :
    parseReset u (a + 9) = .ok (resetRead u v e) := by
  have hnumber : u.memRead (v + 32) 8 = s.pnum.toNat :=
    holds_memRead h.number (lt_trans s.pnum.isLt (by decide))
  have hfamily (hha : ha = true) : u.memRead (v + 40) 2 = s.afam.toNat :=
    holds_memRead (h.family hha) (toNat_lt_pow_256 (n := 2) s.afam)
  have hcount : u.memRead (a + 13) 2 = if ha then 3 else 2 := holds_memRead h.count (by cases ha <;> decide)
  have hlow : 1 ≤ s.pnum.toNat := Nat.pos_of_ne_zero (mt toNat_eq_zero_iff.1 hpos)
  refine parseReset_complete h.tag hcount h.keys ?_ ?_ ?_ hfit (hnumber ▸ hlow)
    (hnumber ▸ Nat.le_of_lt_succ s.pnum.isLt)
  · exact hv.trans (by cases ha <;> rfl)
  · obtain ⟨rfl, rfl, -⟩ | ⟨rfl, -, rfl, -⟩ | ⟨rfl, -, rfl, -⟩ := hform
    · exact .inl ⟨rfl, rfl⟩
    · exact .inr ⟨rfl, .inl rfl, h.entry rfl⟩
    · exact .inr ⟨rfl, .inr rfl, h.entry rfl⟩
  · obtain ⟨rfl, rfl, -⟩ | ⟨rfl, hfam, rfl, -⟩ | ⟨rfl, hfam, rfl, -⟩ := hform
    · exact ⟨nofun, nofun⟩
    · exact ⟨fun _ => by rw [hfamily rfl, hfam]; rfl, nofun⟩
    · exact ⟨nofun, fun _ => by rw [hfamily rfl, hfam]; rfl⟩

/-! ## The registers read back -/

theorem ResetForm.pinfo (h : ResetForm s (s.pinfo.getLsbD 2) e addr) :
    BitVec.ofNat 3 (resetRead u v e).pinfo = s.pinfo &&& 4 := by
  have hmask : ∀ p : BitVec 3, p &&& 4 = if p.getLsbD 2 then 4 else 0 := by decide
  rw [hmask]
  obtain ⟨hha, rfl, -⟩ | ⟨hha, -, rfl, -⟩ | ⟨hha, -, rfl, -⟩ := h
  all_goals
    rw [hha]
    rfl

/-- A register's low 32 bits as a number. -/
theorem ofNat_low_word (x : BitVec 64) : BitVec.ofNat 64 (x.toNat % 2 ^ 32) = x &&& 0xFFFFFFFF :=
  BitVec.eq_of_toNat_eq (by
    rw [BitVec.toNat_ofNat, BitVec.toNat_and, Nat.mod_eq_of_lt (by omega)]
    exact (Nat.and_two_pow_sub_one_eq_mod x.toNat 32).symm)

/-- R205: family, port and the address bytes that the family uses; the others read back as 0. -/
theorem ResetAt.socketAddress {a v : Nat} (h : ResetAt s u ha e addr a v) (hform : ResetForm s ha e addr)
    (hha : ha = true) : BitVec.ofNat 16 (resetRead u v e).afam = s.afam ∧
      BitVec.ofNat 16 (resetRead u v e).aport = s.aport ∧
      (s.afam = 0x0002 → BitVec.ofNat 64 (resetRead u v e).addr0 = s.addr0 &&& 0xFFFFFFFF ∧
        BitVec.ofNat 64 (resetRead u v e).addr1 = 0) ∧
      (s.afam = 0x000A → BitVec.ofNat 64 (resetRead u v e).addr0 = s.addr0 ∧
        BitVec.ofNat 64 (resetRead u v e).addr1 = s.addr1) := by
  have hfamily := memRead_register (n := 2) (h.family hha)
  have hport := h.port hha
  have haddr := h.address hha
  obtain ⟨rfl, -, -⟩ | ⟨rfl, hfam, rfl, rfl⟩ | ⟨rfl, hfam, rfl, rfl⟩ := hform
  · cases hha
  · have hlow : u.memRead (v + 42) 4 = s.addr0.toNat % 2 ^ 32 := holds_memRead haddr (Nat.mod_lt _ (by decide))
    rw [leBytes_length] at hport
    refine ⟨hfamily, memRead_register (n := 2) hport, fun _ => ⟨?_, rfl⟩, fun hv6 => ?_⟩
    · rw [← ofNat_low_word, ← hlow]
      rfl
    · exact absurd (hfam.symm.trans hv6) (by decide)
  · rw [List.length_append, leBytes_length, leBytes_length] at hport
    obtain ⟨h0, h1⟩ := holds_append.1 haddr
    rw [leBytes_length] at h1
    refine ⟨hfamily, memRead_register (n := 2) hport, fun hv4 => ?_, fun _ => ⟨?_, ?_⟩⟩
    · exact absurd (hfam.symm.trans hv4) (by decide)
    · exact memRead_register (n := 8) h0
    · exact memRead_register (n := 8) h1

end

/-- Settles O59: the flags byte 0x0A is a Reset one under both roles, and the parse reads every piece written. -/
theorem resetRoundTrip : Obligations.ResetRoundTrip := by
  intro sb s t u hlegal hmode hexec hready humode hcur hlen hbytes
  have hrule := rule_of_ready (i := .pktSerRst) rfl hmode hexec hready
  obtain ⟨hpos, e, addr, hform, hroom, ht⟩ := serializeReset_emits hrule
  have hdelivered : Delivered t u (resetWire s (s.pinfo.getLsbD 2) e addr) :=
    delivered_of_emitted hlegal ⟨humode, hcur, hlen, hbytes⟩ ht rfl hroom
  replace hform : ResetForm s (s.pinfo.getLsbD 2) e addr := hform
  obtain ⟨v, hv⟩ : ∃ v, v = u.cur.toNat + 33 + if s.pinfo.getLsbD 2 then 8 else 0 := ⟨_, rfl⟩
  have hat := resetAt_of_holds hv hdelivered.holds
  have hend : u.cur.toNat + (resetWire s (s.pinfo.getLsbD 2) e addr).length = v + e := by
    rw [hform.bytes.2]
    omega
  have hpast := hdelivered.cur_eq
  have hfits := hdelivered.fits
  rw [hend] at hpast hfits
  obtain ⟨w, hparse⟩ := exec_pktParse_of_parsed (sb := sb) (b := .reset false false 0) humode (by omega)
    (by rw [hat.flags]; exact decodeFlagsByte_reset sb 0 false false) (hat.parse hform hv hfits hpos)
  have hnumber : u.memRead (v + 32) 8 = s.pnum.toNat := holds_memRead hat.number (lt_trans s.pnum.isLt (by decide))
  obtain ⟨hnonce0, hnonce1, hnonce2, hnonce3⟩ := holds_nonceBytes hat.nonceBytes
  exact ⟨_, hparse, humode, hpast, rfl, memRead_register (n := 8) hat.cid, hform.pinfo,
    (eq_ofNat_of_toNat hnumber.symm).symm, hnonce0, hnonce1, hnonce2, hnonce3, hat.socketAddress hform⟩

end Sys2Proof.Machine
end

section
/-! The round trip of Negotiation packets (44_packet.md R203, R208, R212). -/

namespace Sys2Proof.Machine

section

variable {s t u : State} {a : Nat}

/-- Tags of four bytes, stored one behind the other, are read back by index (R209). -/
theorem memRead_tags {tags : List Nat} (htags : ∀ x ∈ tags, x < 256 ^ 4) (h : Holds u a (tags.flatMap (leBytes 4))) :
    ((List.range tags.length).map fun i => u.memRead (a + 4 * i) 4) = tags := by
  induction tags generalizing a with
  | nil => rfl
  | cons x xs ih =>
    obtain ⟨hx, hxs⟩ := List.forall_mem_cons.1 htags
    obtain ⟨hhead, htail⟩ := holds_append.1 (List.flatMap_cons ▸ h)
    rw [leBytes_length] at htail
    rw [List.length_cons, List.range_succ_eq_map, List.map_cons, List.map_map, Nat.mul_zero, Nat.add_zero,
      holds_memRead hhead hx]
    refine congrArg (x :: ·) (Eq.trans (List.map_congr_left fun i _ => ?_) (ih hxs htail))
    show u.memRead (a + 4 * (i + 1)) 4 = u.memRead (a + 4 + 4 * i) 4
    congr 1
    omega

/-- The Negotiation packet of the registers of `s` stands in BUF of `u` from `a` on. -/
structure NegotiationAt (s u : State) (a : Nat) : Prop where
  flags : u.byte a = 0x09
  cid : Holds u (a + 1) (leBytes 8 s.cid.toNat)
  tags : Holds u (a + 9) (s.supportedTags.flatMap (leBytes 4))

theorem negotiationAt_of_holds (h : Holds u a (negotiationBytes s)) : NegotiationAt s u a := by
  simp only [negotiationBytes, holds_append, holds_cons, List.length_append, List.length_singleton, leBytes_length] at h
  obtain ⟨⟨⟨hflags, -⟩, hcid⟩, htags⟩ := h
  exact ⟨hflags, hcid, htags⟩

/-- What PKT_PARSE answers for tags that run to LEN (R203). -/
theorem parseNegotiation_complete {q n : Nat} (h : u.len.toNat = q + 4 * n) :
    parseNegotiation u q = .ok { pkind := 2, nver := n, negoff := q, next := u.len.toNat } := by
  have hrem : u.len.toNat - q = 4 * n := by omega
  simp only [parseNegotiation, hrem, Nat.mul_mod_right, ne_eq, not_true_eq_false, if_false,
    Nat.mul_div_cancel_left n (show 0 < 4 by decide)]

/-- The tags that NVER and NEGOFF point at. -/
theorem offered_eq {r : State} {tags : List Nat} (hbytes : ∀ x, r.byte x = u.byte x)
    (hnver : r.nver.toNat = tags.length) (hnegoff : r.negoff.toNat = a) (htags : ∀ x ∈ tags, x < 256 ^ 4)
    (h : Holds u a (tags.flatMap (leBytes 4))) : r.offered = tags := by
  rw [State.offered, hnver, hnegoff]
  exact (List.map_congr_left fun i _ => State.memRead_congr fun k _ => hbytes _).trans (memRead_tags htags h)

/-- A tag is a value of a slot, which has 32 bits (10_state.md R33). -/
theorem supportedTags_lt (s : State) : ∀ x ∈ s.supportedTags, x < 256 ^ 4 := by
  intro x hx
  obtain ⟨j, -, rfl⟩ := List.mem_map.1 hx
  exact toNat_lt_pow_256 (n := 4) (s.supvAt j)

end

/-- Settles O60: a server's packet of byte 0x09 is a Negotiation, whose tags fill what LEN leaves. -/
theorem negotiationRoundTrip : Obligations.NegotiationRoundTrip := by
  intro s t u hlegal hmode hexec hready humode hcur hlen hbytes
  obtain ⟨hroom, ht⟩ := serializeNegotiation_ok (rule_of_ready (i := .pktSerNeg) rfl hmode hexec hready)
  have hdelivered : Delivered t u (negotiationBytes s) :=
    delivered_of_emitted hlegal ⟨humode, hcur, by rw [hlen], hbytes⟩ ht rfl hroom
  have hpast := hdelivered.past
  rw [negotiationBytes_length, ← hlen, ← Nat.add_assoc] at hpast
  have hbound := u.len.isLt
  have hat := negotiationAt_of_holds hdelivered.holds
  obtain ⟨w, hparse⟩ := exec_pktParse_of_parsed (sb := .server) (b := .negotiation false 0) humode (by omega)
    (by rw [hat.flags]; exact decodeFlagsByte_negotiation 0 false) (parseNegotiation_complete hpast)
  refine ⟨_, hparse, humode, ?cur, rfl, memRead_register (n := 8) hat.cid, ?nver, ?negoff, ?offered⟩
  case cur => exact (eq_ofNat_of_toNat rfl).symm.trans hlen
  case nver => rw [ht]; rfl
  case negoff => rw [ht]; exact congrArg (fun c : BitVec 16 => BitVec.ofNat 16 (c.toNat + 9)) hcur
  case offered =>
    have hnver : s.supportedTags.length < 2 ^ 16 := by omega
    have hnegoff : u.cur.toNat + 9 < 2 ^ 16 := by omega
    exact offered_eq (fun _ => rfl) (Nat.mod_eq_of_lt hnver) (Nat.mod_eq_of_lt hnegoff) (supportedTags_lt s) hat.tags

end Sys2Proof.Machine
end

section
/-! The pairs that ACK_ENC writes, as ACK_DEC reads them (43_ack.md R176, R179): the entries of one gap and run give
back that run, and the entries of a list the ranges that were emitted. -/

namespace Sys2Proof.Machine

/-! ## Valid lists that reach no number below 1 (R171, R178) -/

section

variable {L m : Nat} {r : AckRange} {rs : List AckRange}

/-- The first range of a list is the highest, and the last the lowest. -/
theorem rangesDescend_bounds (hdescend : rangesDescend (r :: rs) = true)
    (horder : ∀ x ∈ r :: rs, x.first ≤ x.last) : ∀ x ∈ r :: rs, lastFirst r rs ≤ x.first ∧ x.last ≤ r.last := by
  induction rs generalizing r with
  | nil => exact List.forall_mem_singleton.2 ⟨le_rfl, le_rfl⟩
  | cons q rs ih =>
    obtain ⟨hgap, htail⟩ := rangesDescend_cons.1 hdescend
    obtain ⟨hr, hrest⟩ := List.forall_mem_cons.1 horder
    have hbounds := ih htail hrest
    have hq := hrest q List.mem_cons_self
    refine List.forall_mem_cons.2 ⟨⟨?_, le_rfl⟩, fun x hx => ?_⟩
    · have hlow := (hbounds q List.mem_cons_self).1
      rw [lastFirst]
      omega
    · obtain ⟨hlow, hhigh⟩ := hbounds x hx
      exact ⟨hlow, by omega⟩

/-- A valid list that ACK_ENC accepts: it starts at `L`, and its last range begins at 1 or above. -/
structure SoundList (L : Nat) (r : AckRange) (rs : List AckRange) : Prop where
  top : r.last = L
  descends : rangesDescend (r :: rs) = true
  bounds : ∀ x ∈ r :: rs, 1 ≤ x.first ∧ x.first ≤ x.last ∧ x.last ≤ L

theorem soundList_of_valid (hvalid : ackValid L (r :: rs) = true) (hlow : ¬lastFirst r rs < 1) :
    SoundList L r rs := by
  obtain ⟨-, rfl, horder, hdescend⟩ := ackValid_cons_iff.1 hvalid
  refine ⟨rfl, hdescend, fun x hx => ?_⟩
  obtain ⟨hfirst, hlast⟩ := rangesDescend_bounds hdescend horder x hx
  exact ⟨by omega, horder x hx, hlast⟩

/-- The ranges that are kept when the lower ones are dropped still make a valid list, if there are two. -/
theorem SoundList.ackValid_take (h : SoundList L r rs) (hm : 1 ≤ m) (hlength : m ≤ rs.length) :
    ackValid L (r :: rs.take m) = true := by
  have hprefix : r :: rs.take m = (r :: rs).take (m + 1) := rfl
  refine ackValid_cons_iff.2 ⟨?_, h.top, ?_, ?_⟩
  · rw [← List.length_pos_iff, List.length_take]
    omega
  · rw [hprefix]
    exact fun x hx => (h.bounds x (List.mem_of_mem_take hx)).2.1
  · rw [hprefix, rangesDescend_iff]
    have hkept (j : Nat) (y : AckRange) (hy : ((r :: rs).take (m + 1))[j]? = some y) : (r :: rs)[j]? = some y := by
      rw [List.getElem?_take] at hy
      split_ifs at hy
      exact hy
    exact fun i x q hx hq => (rangesDescend_iff _).1 h.descends i x q (hkept i x hx) (hkept (i + 1) q hq)

end

/-! ## One gap and run -/

section

variable {u : State} {abw n p pf gap run : Nat}

/-- The pieces of 255 and the rest add up to the gap, and the run follows in the last entry. -/
theorem ackPairs_gapEntries (hgap : 1 ≤ gap) (hpos : run ≠ 0) (hwidth : run < 256 ^ abw)
    (hbytes : Holds u p (pairBytes abw (gapEntries gap run)))
    (hfit : p + (gapEntries gap run).length * (1 + abw) ≤ u.len.toNat) (hlow : gap + run < pf) :
    ackPairs u abw ((gapEntries gap run).length + n) p 0 pf =
      (ackPairs u abw n (p + (gapEntries gap run).length * (1 + abw)) 0 (pf - gap - run)).map
        fun a => (⟨pf - gap - run, pf - gap - 1⟩ :: a.1, a.2) := by
  obtain ⟨k, hk⟩ : ∃ k, gapCount gap = k + 1 := ⟨gapCount gap - 1, by rw [gapCount]; omega⟩
  have hpieces : 255 * k < gap ∧ gap ≤ 255 * k + 255 := by
    rw [gapCount] at hk
    omega
  have hsplit : gapEntries gap run =
      (List.replicate k 255).map (fun x => (x, 0)) ++ [(gap - 255 * k, run)] := by
    rw [gapEntries, hk, Nat.add_sub_cancel, List.map_replicate]
  have hlast : k * 255 + (gap - 255 * k) = gap := by omega
  rw [gapEntries_length run hgap, hk, Nat.succ_mul] at hfit ⊢
  rw [hsplit, pairBytes_append] at hbytes
  obtain ⟨hseries, hentry⟩ := holds_append.1 hbytes
  rw [pairBytes_length, List.length_map, List.length_replicate] at hentry
  obtain ⟨hbyte, hread, -⟩ := holds_pairBytes_cons (by omega) hwidth hentry
  have hmerge := ackPairs_continuations (n := n + 1) (acc := 0) (pf := pf)
    (fun x hx => (List.eq_of_mem_replicate hx).le) hseries (by rw [List.length_replicate]; omega)
  rw [List.length_replicate, List.sum_replicate, smul_eq_mul, Nat.zero_add] at hmerge
  rw [Nat.add_assoc k 1 n, Nat.add_comm 1 n, hmerge, ackPairs_run (by omega) hbyte hread hpos (by omega), hlast,
    Nat.add_assoc p]

theorem gapEntries_snd_le : ∀ q ∈ gapEntries gap run, q.2 ≤ run := by
  intro q hq
  rw [gapEntries, List.mem_append, List.mem_singleton] at hq
  obtain hpiece | rfl := hq
  · rw [List.eq_of_mem_replicate hpiece]
    exact Nat.zero_le _
  · exact le_rfl

theorem run_mem_gapEntries : ∃ g, (g, run) ∈ gapEntries gap run :=
  ⟨_, List.mem_append_right _ (List.mem_singleton_self _)⟩

end

/-! ## The entries of a list -/

section

variable {u : State} {abw p L used m : Nat} {r : AckRange} {rs : List AckRange} {pairs : List (Nat × Nat)}

/-- A block length of the wire is never larger than the run that it stands for. -/
theorem ackEntries_snd_le {above : Nat} (hbounds : ∀ x ∈ rs, 1 ≤ x.first ∧ x.first ≤ x.last ∧ x.last ≤ L)
    (h : ackEntries above used rs = (m, pairs)) : ∀ q ∈ pairs, q.2 ≤ L := by
  induction rs generalizing above used m pairs with
  | nil =>
    cases h
    exact fun q hq => absurd hq List.not_mem_nil
  | cons x rs ih =>
    obtain ⟨⟨hlow, horder, hhigh⟩, hrest⟩ := List.forall_mem_cons.1 hbounds
    by_cases hfit : used + gapCount (above - x.last - 1) ≤ 255
    · rw [ackEntries_keep hfit] at h
      cases h
      refine List.forall_mem_append.2 ⟨fun q hq => ?_, ih hrest rfl⟩
      have hle := gapEntries_snd_le q hq
      omega
    · rw [ackEntries_drop (Nat.lt_of_not_le hfit)] at h
      cases h
      exact fun q hq => absurd hq List.not_mem_nil

/-- R181: the parser reads the emitted ranges back from their entries, where every block length fits the width. -/
theorem ackPairs_ackEntries (hdescend : rangesDescend (r :: rs) = true)
    (hbounds : ∀ x ∈ rs, 1 ≤ x.first ∧ x.first ≤ x.last) (h : ackEntries r.first used rs = (m, pairs))
    (hwidth : ∀ q ∈ pairs, q.2 < 256 ^ abw) (hbytes : Holds u p (pairBytes abw pairs))
    (hfit : p + pairs.length * (1 + abw) ≤ u.len.toNat) :
    ackPairs u abw pairs.length p 0 r.first = .ok (rs.take m, p + pairs.length * (1 + abw)) := by
  induction rs generalizing r used m pairs p with
  | nil =>
    cases h
    simp [ackPairs]
  | cons q rs ih =>
    obtain ⟨hgap, htail⟩ := rangesDescend_cons.1 hdescend
    obtain ⟨⟨hlow, horder⟩, hrest⟩ := List.forall_mem_cons.1 hbounds
    by_cases hcap : used + gapCount (r.first - q.last - 1) ≤ 255
    · rw [ackEntries_keep hcap] at h
      cases h
      obtain ⟨hgapWidth, htailWidth⟩ := List.forall_mem_append.1 hwidth
      obtain ⟨g, hrun⟩ := run_mem_gapEntries (gap := r.first - q.last - 1) (run := q.last - q.first + 1)
      have hrunWidth : q.last - q.first + 1 < 256 ^ abw := hgapWidth _ hrun
      rw [pairBytes_append] at hbytes
      obtain ⟨hhead, htailBytes⟩ := holds_append.1 hbytes
      rw [pairBytes_length] at htailBytes
      rw [List.length_append, Nat.add_mul, ← Nat.add_assoc] at hfit ⊢
      have hnext : r.first - (r.first - q.last - 1) - (q.last - q.first + 1) = q.first := by omega
      have hend : r.first - (r.first - q.last - 1) - 1 = q.last := by omega
      rw [ackPairs_gapEntries (by omega) (by omega) hrunWidth hhead (by omega) (by omega), hnext,
        hend, ih htail hrest rfl htailWidth htailBytes hfit]
      rfl
    · rw [ackEntries_drop (Nat.lt_of_not_le hcap)] at h
      cases h
      simp [ackPairs]

end

end Sys2Proof.Machine
end

section
/-! The round trip of ACK frames (43_ack.md R181): the frame that ACK_ENC plans and emits is the frame that ACK_DEC
reads field by field, and its pairs give back the ranges emitted. -/

namespace Sys2Proof.Machine

theorem foldl_max_le_iff {xs : List Nat} {b c : Nat} : xs.foldl max b ≤ c ↔ b ≤ c ∧ ∀ x ∈ xs, x ≤ c := by
  induction xs generalizing b with
  | nil => simp
  | cons x xs ih => rw [List.foldl_cons, ih, List.forall_mem_cons, max_le_iff, and_assoc]

section

variable {s t u : State} {a : AckPlan} {L delay h : Nat}

/-! ## The plan of a frame (R178) -/

/-- The largest block length of a plan, for which the block width is chosen. -/
def AckPlan.largestBlock (a : AckPlan) : Nat := (a.pairs.map Prod.snd).foldl max a.firstBlock

/-- The block width of the frame (R175, ABW). -/
def AckPlan.width (a : AckPlan) : Nat := pnWidth a.largestBlock

/-- What the operand checks of R178 make sure of in a plan for the largest acknowledged `L`. -/
structure AckPlan.Sound (L : Nat) (a : AckPlan) : Prop where
  largest : L < 2 ^ 48
  firstPos : 1 ≤ a.firstBlock
  firstLe : a.firstBlock ≤ L
  blocksLe : ∀ q ∈ a.pairs, q.2 ≤ L
  count : a.pairs.length ≤ 255
  single : a.emitted < 2 → a.pairs = []

theorem AckPlan.Sound.largestBlock_le (hs : a.Sound L) : a.largestBlock ≤ L :=
  foldl_max_le_iff.2 ⟨hs.firstLe, List.forall_mem_map.2 hs.blocksLe⟩

/-- The chosen width holds the first block and every block length. -/
theorem AckPlan.Sound.blocks_lt (hs : a.Sound L) :
    a.firstBlock < 256 ^ a.width ∧ ∀ q ∈ a.pairs, q.2 < 256 ^ a.width := by
  have hle := hs.largestBlock_le
  have hlargest := hs.largest
  obtain ⟨-, hfit, -⟩ := pnWidth_least (v := a.largestBlock) (by omega)
  obtain ⟨hfirst, hblocks⟩ := foldl_max_le_iff.1 (le_refl a.largestBlock)
  exact ⟨lt_of_le_of_lt hfirst hfit, fun q hq => lt_of_le_of_lt (List.forall_mem_map.1 hblocks q hq) hfit⟩

/-! ## The type byte (R175, item 1) -/

/-- The type byte of the frame. -/
def AckPlan.typeByte (a : AckPlan) (L : Nat) : Byte :=
  BitVec.ofNat 8 (0x40 + (if 2 ≤ a.emitted then 1 else 0) * 32 + pnCode (pnWidth L) * 8 + pnCode a.width)

theorem AckPlan.typeByte_toNat (a : AckPlan) (L : Nat) : (a.typeByte L).toNat =
    0x40 + (if 2 ≤ a.emitted then 1 else 0) * 32 + pnCode (pnWidth L) * 8 + pnCode a.width := by
  have hlaw := pnCode_lt (pnWidth L)
  have habw := pnCode_lt a.width
  refine Nat.mod_eq_of_lt ?_
  split_ifs <;> omega

theorem AckPlan.typeByte_kind (a : AckPlan) (L : Nat) : field (a.typeByte L) 7 6 = 1 := by
  have hlaw := pnCode_lt (pnWidth L)
  have habw := pnCode_lt a.width
  rw [field, a.typeByte_toNat]
  split_ifs <;> omega

theorem AckPlan.typeByte_missing (a : AckPlan) (L : Nat) :
    (a.typeByte L).getLsbD 5 = decide (2 ≤ a.emitted) := by
  have hlaw := pnCode_lt (pnWidth L)
  have habw := pnCode_lt a.width
  by_cases hemitted : 2 ≤ a.emitted
  · rw [decide_eq_true hemitted]
    refine getLsbD_eq_true ?_
    rw [a.typeByte_toNat, if_pos hemitted]
    omega
  · rw [decide_eq_false hemitted]
    refine getLsbD_eq_false ?_
    rw [a.typeByte_toNat, if_neg hemitted]
    omega

theorem AckPlan.Sound.typeByte_widths (hs : a.Sound L) :
    codedWidth (a.typeByte L) 4 3 = pnWidth L ∧ codedWidth (a.typeByte L) 1 0 = a.width := by
  have hlaw := pnCode_lt (pnWidth L)
  have habw := pnCode_lt a.width
  have hle := hs.largestBlock_le
  have hlargest := hs.largest
  have hlawField : field (a.typeByte L) 4 3 = pnCode (pnWidth L) := by
    rw [field, a.typeByte_toNat]
    split_ifs <;> omega
  have habwField : field (a.typeByte L) 1 0 = pnCode a.width := by
    rw [field, a.typeByte_toNat]
    split_ifs <;> omega
  rw [codedWidth, codedWidth, hlawField, habwField]
  exact ⟨pnOfCode_pnCode _ (pnWidth_least (by omega)).1, pnOfCode_pnCode _ (pnWidth_least (by omega)).1⟩

/-! ## The frame on the wire (R175) -/

/-- The frame of a plan, written from address `h` on. -/
def AckPlan.wireAt (a : AckPlan) (L delay h : Nat) : AckWire :=
  let first := h + 3 + pnWidth L + (if 2 ≤ a.emitted then 1 else 0)
  let stamps := first + a.width + a.pairs.length * (1 + a.width)
  { missing := decide (2 ≤ a.emitted), width := a.width, largest := L, delayCode := uf16Enc delay
    firstBlock := a.firstBlock, count := a.pairs.length, pairs := first + a.width, stamps := stamps
    next := stamps + 1 }

/-- The bytes of the frame in the pieces that the parser reads. -/
theorem ackFrameBytes_eq (L delay : Nat) (a : AckPlan) : ackFrameBytes L delay a =
    [a.typeByte L] ++ leBytes (pnWidth L) L ++ leBytes 2 (uf16Enc delay) ++
      (if 2 ≤ a.emitted then [BitVec.ofNat 8 a.pairs.length] else []) ++ leBytes a.width a.firstBlock ++
      pairBytes a.width a.pairs ++ [0x00] := rfl

theorem ackFrameBytes_length (L delay h : Nat) (a : AckPlan) :
    h + (ackFrameBytes L delay a).length = (a.wireAt L delay h).next := by
  simp only [ackFrameBytes_eq, List.length_append, List.length_singleton, leBytes_length, pairBytes_length,
    apply_ite List.length, List.length_nil, AckPlan.wireAt]
  omega

/-- A frame that stands in BUF is read field by field as it was planned. -/
theorem AckPlan.Sound.ackWireAt_eq (hs : a.Sound L) (hbytes : Holds u h (ackFrameBytes L delay a)) :
    field (u.byte h) 7 6 = 1 ∧ ackWireAt u h = a.wireAt L delay h ∧
      Holds u (a.wireAt L delay h).pairs (pairBytes a.width a.pairs) := by
  simp only [ackFrameBytes_eq, holds_append, holds_cons, List.length_append, List.length_singleton, leBytes_length,
    pairBytes_length, apply_ite List.length, List.length_nil, ← Nat.add_assoc] at hbytes
  obtain ⟨⟨⟨⟨⟨⟨⟨htype, -⟩, hlargest⟩, hdelay⟩, hcount⟩, hfirst⟩, hpairs⟩, hstamps, -⟩ := hbytes
  obtain ⟨hlaw, habw⟩ := hs.typeByte_widths
  have hmissing := a.typeByte_missing L
  have hcode : h + 1 + pnWidth L + 2 = h + 3 + pnWidth L := by omega
  rw [← htype] at hlaw habw hmissing
  rw [hcode] at hcount hfirst hpairs hstamps
  have hL : u.memRead (h + 1) (pnWidth L) = L :=
    holds_memRead hlargest (pnWidth_least (Nat.le_of_lt_succ hs.largest)).2.1
  have hdc : u.memRead (h + 1 + pnWidth L) 2 = uf16Enc delay := holds_memRead hdelay (uf16Enc_lt delay)
  have hfb := holds_memRead hfirst hs.blocks_lt.1
  have hpairCount : (if 2 ≤ a.emitted then (u.byte (h + 3 + pnWidth L)).toNat else 0) = a.pairs.length := by
    split_ifs with hemitted
    · rw [if_pos hemitted, holds_cons] at hcount
      rw [hcount.1]
      exact Nat.mod_eq_of_lt (Nat.lt_succ_of_le hs.count)
    · rw [hs.single (Nat.lt_of_not_le hemitted), List.length_nil]
  refine ⟨htype ▸ a.typeByte_kind L, ?_, hpairs⟩
  simp only [ackWireAt, AckPlan.wireAt, hlaw, habw, hmissing, decide_eq_true_eq, hL, hdc, hfb, hpairCount, hstamps]
  rfl

/-! ## The parse (R176) -/

/-- The parse of a frame whose pairs are read as the runs `rest`. -/
theorem AckStart.ackParse_of_pairs {x : AckWire} {rest : List AckRange} (hstart : AckStart u h x)
    (hpairs : ackPairs u x.width x.count x.pairs 0 x.first = .ok (rest, x.stamps)) (hfit : x.next ≤ u.len.toNat) :
    ackParse u h =
      if x.missing = false then .ok ⟨x.largest, x.first, uf16Dec x.delayCode, [], x.next⟩
      else if ackValid x.largest (x.head :: rest) = false then .error .badAck
      else .ok ⟨x.largest, lastFirst x.head rest, uf16Dec x.delayCode, x.head :: rest, x.next⟩ := by
  rw [hstart.ackParse_eq]
  obtain rfl := hstart.wire
  exact ackBlocks_of_stamps_ok hstart.firstFits hstart.not_badFirst hpairs (ackTimestamps_complete hfit)

/-- A frame that lies below LEN has a good start. -/
theorem AckPlan.Sound.ackStart (hs : a.Sound L) (hbytes : Holds u h (ackFrameBytes L delay a))
    (hfit : (a.wireAt L delay h).next ≤ u.len.toNat) : AckStart u h (a.wireAt L delay h) := by
  obtain ⟨htype, hwire, -⟩ := hs.ackWireAt_eq hbytes
  exact ackStart_of_complete hwire.symm htype hfit hs.firstPos hs.firstLe

/-- A plan with no further range has no pairs, and the frame is read as an empty list. -/
theorem AckPlan.Sound.ackParse_single (hs : a.Sound L) (hbytes : Holds u h (ackFrameBytes L delay a))
    (hfit : (a.wireAt L delay h).next ≤ u.len.toNat) (hemitted : a.emitted < 2) : ackParse u h =
      .ok ⟨L, L - a.firstBlock + 1, uf16Dec (uf16Enc delay), [], (a.wireAt L delay h).next⟩ := by
  have hpairs : ackPairs u a.width a.pairs.length (a.wireAt L delay h).pairs 0 (L - a.firstBlock + 1) =
      .ok ([], (a.wireAt L delay h).stamps) := by
    simp [hs.single hemitted, AckPlan.wireAt, ackPairs]
  exact ((hs.ackStart hbytes hfit).ackParse_of_pairs hpairs hfit).trans
    (if_pos (decide_eq_false (Nat.not_le.2 hemitted)))

/-- A plan with further ranges is read as the first block and the runs of the pairs, if they make a valid list. -/
theorem AckPlan.Sound.ackParse_ranges (hs : a.Sound L) (hbytes : Holds u h (ackFrameBytes L delay a))
    (hfit : (a.wireAt L delay h).next ≤ u.len.toNat) (hemitted : 2 ≤ a.emitted) {rest : List AckRange}
    (hpairs : ackPairs u a.width a.pairs.length (a.wireAt L delay h).pairs 0 (L - a.firstBlock + 1) =
      .ok (rest, (a.wireAt L delay h).stamps))
    (hvalid : ackValid L (⟨L - a.firstBlock + 1, L⟩ :: rest) = true) : ackParse u h =
      .ok ⟨L, lastFirst ⟨L - a.firstBlock + 1, L⟩ rest, uf16Dec (uf16Enc delay), ⟨L - a.firstBlock + 1, L⟩ :: rest,
        (a.wireAt L delay h).next⟩ := by
  have hmissing : ¬(a.wireAt L delay h).missing = false := by
    show ¬decide (2 ≤ a.emitted) = false
    rw [decide_eq_true hemitted]
    nofun
  exact ((hs.ackStart hbytes hfit).ackParse_of_pairs hpairs hfit).trans
    ((if_neg hmissing).trans (if_neg (fun hbad => Bool.false_ne_true (hbad.symm.trans hvalid))))

end

/-! ## What a plan stands for (R178) -/

section

variable {s u : State} {a : AckPlan} {delay h : Nat} {r : AckRange} {rs : List AckRange}

/-- The plan of a list that begins with `r`. -/
def listPlan (s : State) (r : AckRange) (rs : List AckRange) : AckPlan :=
  ⟨s.largest.toNat - r.first + 1, (ackEntries r.first 0 rs).1 + 1, (ackEntries r.first 0 rs).2⟩

/-- The two kinds of plans: of an empty list, and of a list that is valid and reaches no number below 1. -/
theorem ackPlan_cases (h : ackPlan s = .ok a) :
    (s.ranges = [] ∧ 1 ≤ s.lowest.toNat ∧ s.lowest.toNat ≤ s.largest.toNat ∧
      a = ⟨s.largest.toNat - s.lowest.toNat + 1, 0, []⟩) ∨
    ∃ r rs, s.ranges = r :: rs ∧ SoundList s.largest.toNat r rs ∧ a = listPlan s r rs := by
  by_cases hL : s.largest = 0
  · rw [ackPlan_largest_zero hL] at h
    cases h
  cases hranges : s.ranges with
  | nil =>
    rw [ackPlan_empty hL hranges] at h
    split_ifs at h with hlowest
    cases h
    exact .inl ⟨rfl, by omega, by omega, rfl⟩
  | cons r rs =>
    rw [ackPlan_cons hL hranges] at h
    split_ifs at h with hvalid hlow
    cases h
    exact .inr ⟨r, rs, rfl, soundList_of_valid (eq_true_of_ne_false hvalid) hlow, rfl⟩

theorem emptyPlan_sound (hpos : 1 ≤ s.lowest.toNat) (hle : s.lowest.toNat ≤ s.largest.toNat) :
    AckPlan.Sound s.largest.toNat ⟨s.largest.toNat - s.lowest.toNat + 1, 0, []⟩ where
  largest := s.largest.isLt
  firstPos := Nat.succ_pos _
  firstLe := by simp only; omega
  blocksLe := nofun
  count := Nat.zero_le _
  single := fun _ => rfl

theorem SoundList.tail_bounds (hlist : SoundList s.largest.toNat r rs) :
    ∀ x ∈ rs, 1 ≤ x.first ∧ x.first ≤ x.last ∧ x.last ≤ s.largest.toNat :=
  fun x hx => hlist.bounds x (List.mem_cons_of_mem r hx)

theorem SoundList.keepsHighest (hlist : SoundList s.largest.toNat r rs) :
    KeepsHighest r rs 0 (ackEntries r.first 0 rs).1 (ackEntries r.first 0 rs).2 :=
  ackEntries_keepsHighest hlist.descends (Nat.zero_le _) rfl

theorem listPlan_sound (hlist : SoundList s.largest.toNat r rs) : (listPlan s r rs).Sound s.largest.toNat where
  largest := s.largest.isLt
  firstPos := Nat.succ_pos _
  firstLe := by
    obtain ⟨hlow, horder, hhigh⟩ := hlist.bounds r List.mem_cons_self
    simp only [listPlan]
    omega
  blocksLe := ackEntries_snd_le hlist.tail_bounds rfl
  count := by
    have hcap := hlist.keepsHighest.cap
    rwa [Nat.zero_add] at hcap
  single := fun hemitted => by
    have hnone : (ackEntries r.first 0 rs).1 = 0 := Nat.le_zero.1 (Nat.le_of_lt_succ (Nat.lt_of_succ_lt_succ hemitted))
    have hentries := hlist.keepsHighest.entries
    rwa [hnone, List.take_zero] at hentries

/-- The first block is the first range, since that ends at the largest acknowledged. -/
theorem listPlan_first (hlist : SoundList s.largest.toNat r rs) :
    s.largest.toNat - (listPlan s r rs).firstBlock + 1 = r.first := by
  obtain ⟨hlow, horder, hhigh⟩ := hlist.bounds r List.mem_cons_self
  simp only [listPlan]
  omega

theorem listPlan_head (hlist : SoundList s.largest.toNat r rs) :
    (⟨s.largest.toNat - (listPlan s r rs).firstBlock + 1, s.largest.toNat⟩ : AckRange) = r := by
  rw [listPlan_first hlist, ← hlist.top]

/-! ## The list read back (R181) -/

/-- What ACK_DEC reads of the list in the registers of `s` when `m` of its ranges were emitted. -/
structure ReadList (s : State) (m : Nat) (f : AckFrame) : Prop where
  emitted : m ≤ s.nranges.toNat
  empty : s.nranges = 0 → f.lowest = s.lowest.toNat ∧ f.ranges = []
  single : m = 1 → f.lowest = (s.rangeFirstAt 0).toNat ∧ f.ranges = []
  further : 2 ≤ m → f.lowest = (s.rangeFirstAt (m - 1)).toNat ∧ f.ranges = s.ranges.take m

/-- The last of the first ranges of the list in the registers. -/
theorem lastFirst_take {m : Nat} (hranges : s.ranges = r :: rs) (hm : m ≤ rs.length) :
    lastFirst r (rs.take m) = (s.rangeFirstAt m).toNat := by
  have hlength : s.nranges.toNat = rs.length + 1 := by rw [← s.ranges_length, hranges, List.length_cons]
  obtain ⟨hlast, hfirst⟩ := lastFirst_getLast r (rs.take m)
  have hentry := State.ranges_getElem? (s := s) (i := m) (by omega)
  have hkept : (r :: rs.take m)[m]? = (r :: rs)[m]? := by
    rw [← List.take_succ_cons, List.getElem?_take_of_lt (Nat.lt_succ_self m)]
  rw [List.length_take, Nat.min_eq_left hm, hkept, ← hranges, hentry, Option.some_inj] at hlast
  rw [← hfirst, ← hlast]

/-- A list of which further ranges are emitted is read back as far as it is emitted. -/
theorem ackParse_of_listPlan (hlist : SoundList s.largest.toNat r rs)
    (hbytes : Holds u h (ackFrameBytes s.largest.toNat delay (listPlan s r rs)))
    (hfit : ((listPlan s r rs).wireAt s.largest.toNat delay h).next ≤ u.len.toNat)
    (hm : 1 ≤ (ackEntries r.first 0 rs).1) : ackParse u h =
      .ok ⟨s.largest.toNat, lastFirst r (rs.take (ackEntries r.first 0 rs).1), uf16Dec (uf16Enc delay),
        r :: rs.take (ackEntries r.first 0 rs).1, ((listPlan s r rs).wireAt s.largest.toNat delay h).next⟩ := by
  have hsound := listPlan_sound hlist
  obtain ⟨-, -, hheld⟩ := hsound.ackWireAt_eq hbytes
  have hhead := listPlan_head hlist
  have hbounds : ∀ x ∈ rs, 1 ≤ x.first ∧ x.first ≤ x.last := fun x hx =>
    (hlist.tail_bounds x hx).imp_right And.left
  have hpairs : ackPairs u (listPlan s r rs).width (listPlan s r rs).pairs.length
      ((listPlan s r rs).wireAt s.largest.toNat delay h).pairs 0
      (s.largest.toNat - (listPlan s r rs).firstBlock + 1) =
        .ok (rs.take (ackEntries r.first 0 rs).1, ((listPlan s r rs).wireAt s.largest.toNat delay h).stamps) := by
    rw [listPlan_first hlist]
    exact ackPairs_ackEntries hlist.descends hbounds rfl hsound.blocks_lt.2 hheld ((Nat.le_succ _).trans hfit)
  have hvalid : ackValid s.largest.toNat (⟨s.largest.toNat - (listPlan s r rs).firstBlock + 1, s.largest.toNat⟩ ::
      rs.take (ackEntries r.first 0 rs).1) = true := by
    rw [hhead]
    exact hlist.ackValid_take hm hlist.keepsHighest.count
  have hparse := hsound.ackParse_ranges hbytes hfit (Nat.succ_le_succ hm) hpairs hvalid
  rwa [hhead] at hparse

/-- What ACK_ENC plans for a state, ACK_DEC parses where the frame stands in BUF below LEN. -/
theorem ackParse_of_plan (hplan : ackPlan s = .ok a) (hbytes : Holds u h (ackFrameBytes s.largest.toNat delay a))
    (hfit : (a.wireAt s.largest.toNat delay h).next ≤ u.len.toNat) : ∃ f, ackParse u h = .ok f ∧
      f.largest = s.largest.toNat ∧ f.delay = uf16Dec (uf16Enc delay) ∧
      f.next = (a.wireAt s.largest.toNat delay h).next ∧ ReadList s a.emitted f := by
  obtain ⟨hranges, hpos, hle, rfl⟩ | ⟨r, rs, hranges, hlist, rfl⟩ := ackPlan_cases hplan
  · refine ⟨_, (emptyPlan_sound hpos hle).ackParse_single hbytes hfit Nat.two_pos, rfl, rfl, rfl, Nat.zero_le _,
      fun _ => ⟨?_, rfl⟩, nofun, nofun⟩
    simp only
    omega
  · have hlength : s.nranges.toNat = rs.length + 1 := by rw [← s.ranges_length, hranges, List.length_cons]
    have hcount := hlist.keepsHighest.count
    have hnonempty : s.nranges ≠ 0 := fun hzero => by
      rw [State.ranges_eq_nil_iff.2 hzero] at hranges
      cases hranges
    by_cases hm : 1 ≤ (ackEntries r.first 0 rs).1
    · refine ⟨_, ackParse_of_listPlan hlist hbytes hfit hm, rfl, rfl, rfl, ?_, fun hzero => absurd hzero hnonempty,
        fun hone => ?_, fun _ => ⟨lastFirst_take hranges hcount, ?_⟩⟩
      · exact (Nat.succ_le_succ hcount).trans hlength.ge
      · exact absurd (Nat.succ.inj hone) (Nat.pos_iff_ne_zero.1 hm)
      · rw [hranges, listPlan, List.take_succ_cons]
    · have hnone : (ackEntries r.first 0 rs).1 = 0 := by omega
      have hone : (listPlan s r rs).emitted = 1 := congrArg Nat.succ hnone
      have hparse := (listPlan_sound hlist).ackParse_single hbytes hfit (by omega)
      rw [listPlan_first hlist] at hparse
      refine ⟨_, hparse, rfl, rfl, rfl, by omega, fun hzero => absurd hzero hnonempty,
        fun _ => ⟨lastFirst_take hranges (Nat.zero_le _), rfl⟩, fun htwo => ?_⟩
      rw [hone] at htwo
      exact absurd htwo (by decide)

end

/-! ## The obligation -/

/-- A frame that ACK_DEC reads is loaded whole. -/
theorem ackLoaded_of_readList {s u : State} {f : AckFrame} {m : Nat} (hparse : ackParse u u.cur.toNat = .ok f)
    (hlist : ReadList s m f) :
    (s.nranges = 0 → (ackLoaded f u).lowest = s.lowest ∧ (ackLoaded f u).nranges = 0) ∧
      (m = 1 → (ackLoaded f u).lowest = s.rangeFirstAt 0 ∧ (ackLoaded f u).nranges = 0) ∧
      (2 ≤ m → (ackLoaded f u).nranges = BitVec.ofNat 16 m ∧ (ackLoaded f u).ranges = s.ranges.take m ∧
        (ackLoaded f u).lowest = s.rangeFirstAt (m - 1)) := by
  obtain ⟨hgood, hlargest⟩ := ackParse_ok hparse
  have hlowest {x : BitVec 48} (h : f.lowest = x.toNat) : (ackLoaded f u).lowest = x := (eq_ofNat_of_toNat h.symm).symm
  have hnone (h : f.ranges = []) : (ackLoaded f u).nranges = 0 := by
    show BitVec.ofNat 16 f.ranges.length = 0
    rw [h]
    rfl
  refine ⟨fun hzero => ?_, fun hone => ?_, fun htwo => ?_⟩
  · obtain ⟨hlow, hranges⟩ := hlist.empty hzero
    exact ⟨hlowest hlow, hnone hranges⟩
  · obtain ⟨hlow, hranges⟩ := hlist.single hone
    exact ⟨hlowest hlow, hnone hranges⟩
  · obtain ⟨hlow, hranges⟩ := hlist.further htwo
    refine ⟨?_, by rw [ackLoaded_ranges hgood hlargest, hranges], hlowest hlow⟩
    show BitVec.ofNat 16 f.ranges.length = BitVec.ofNat 16 m
    rw [hranges, List.length_take, s.ranges_length, Nat.min_eq_left hlist.emitted]

/-- Settles O49: the plan of ACK_ENC is read back by `ackParse_of_plan`, and its answer loaded. -/
theorem ackRoundTrip : Obligations.AckRoundTrip := by
  intro s t u hlegal hmode hexec hready humode hcur hlen hbytes
  obtain ⟨a, hplan, hroom, ht⟩ := ackEncode_ok (rule_of_ready (i := .ackEnc) rfl hmode hexec hready)
  replace hplan : ackPlan s = .ok a := hplan
  have hdelivered : Delivered t u (ackFrameBytes s.largest.toNat s.delay.toNat a) :=
    delivered_of_emitted hlegal ⟨humode, hcur, hlen, hbytes⟩ ht rfl hroom
  have hpast := hdelivered.cur_eq
  have hfits := hdelivered.fits
  rw [ackFrameBytes_length] at hpast hfits
  obtain ⟨f, hparse, hlargest, hdelay, hnext, hlist⟩ := ackParse_of_plan hplan hdelivered.holds hfits
  have haemit : t.aemit = BitVec.ofNat 16 a.emitted := by rw [ht]; rfl
  have hemitted : t.aemit.toNat = a.emitted := by
    rw [haemit]
    exact Nat.mod_eq_of_lt (lt_of_le_of_lt hlist.emitted s.nranges.isLt)
  obtain ⟨hempty, hsingle, hfurther⟩ := ackLoaded_of_readList hparse hlist
  rw [← haemit, ← hemitted] at hfurther
  refine ⟨ackLoaded f u, exec_ackDec_of_ok humode hparse, humode, ?hcur, ?hlargest, ?hdelay, hempty, ?hsingle, hfurther⟩
  case hcur => exact (congrArg (BitVec.ofNat 16) hnext).trans hpast
  case hlargest => exact (eq_ofNat_of_toNat hlargest.symm).symm
  case hdelay => exact congrArg (BitVec.ofNat 64) hdelay
  case hsingle =>
    intro hone
    rw [hone] at hemitted
    exact hsingle hemitted.symm

end Sys2Proof.Machine
end
